-- ==== Sys2Proof/Word.lean ====
section
/-! DEFINITION. The word types of the machine (00_scope.md R12, R14 to R16). -/

namespace Sys2Proof

/-- A byte: an unsigned integer 0..255 (R14). -/
abbrev Byte := BitVec 8

/-- A 32-bit bus word or 32-bit register (R12). -/
abbrev Word := BitVec 32

/-- A 16-bit byte offset within the 64 KiB register window (R12, R210). -/
abbrev Offset := BitVec 16

/-- A block: a byte sequence of length exactly 16. A 128-bit register (KEY, IV, STATE, RK[k]) holds a block, never an
integer (R16). `B[k]` is its byte k in block order. -/
abbrev Block := Vector Byte 16

/-- The round-key file RK[0..10] (R117). -/
abbrev RoundKeys := Vector Block 11

end Sys2Proof
end

