-- ==== Sys2Proof/Syntax.lean ====
section
/-! DEFINITION. The 22 commands of the opcode map (30_encoding.md R303), one constructor per row of the table. The only
operand a command word encodes is RND, a 4-bit unsigned field (R301). -/

namespace Sys2Proof

inductive Instr where
  | nop                                  -- 0x00, R710
  | keyld                                -- 0x01, R521
  | keyexp                               -- 0x02, R520
  | encblk                               -- 0x03, R560
  | decblk                               -- 0x04, R561
  | gfmul                                -- 0x08, R420
  | gfdbl                                -- 0x09, R421
  | sbox                                 -- 0x0A, R422
  | invsbox                              -- 0x0B, R423
  | subbytes                             -- 0x10, R470
  | invsubbytes                          -- 0x11, R471
  | shiftrows                            -- 0x12, R472
  | invshiftrows                         -- 0x13, R473
  | mixcolumns                           -- 0x14, R474
  | invmixcolumns                        -- 0x15, R475
  | addroundkey (rnd : BitVec 4)         -- 0x16, R476
  | encround (rnd : BitVec 4)            -- 0x18, R477
  | decround (rnd : BitVec 4)            -- 0x19, R478
  | pad                                  -- 0x20, R610
  | unpad                                -- 0x21, R611
  | cbcenc                               -- 0x30, R660
  | cbcdec                               -- 0x31, R661
  deriving DecidableEq, Repr

end Sys2Proof
end

