-- ==== Sys2Proof/WellFormed.lean ====
section
/-! DEFINITION. Which commands are legal (30_encoding.md R301): a round number names one of the round keys RK[0..10]. -/

namespace Sys2Proof

/-- The legal values of RND are 0 to 10 (R301). -/
def legalRound (rnd : BitVec 4) : Bool := decide (rnd.toNat ≤ 10)

/-- A command is well formed when its round number, if it has one, is legal (R301, R305). -/
def Instr.wellFormed : Instr → Bool
  | .nop => true
  | .keyld => true
  | .keyexp => true
  | .encblk => true
  | .decblk => true
  | .gfmul => true
  | .gfdbl => true
  | .sbox => true
  | .invsbox => true
  | .subbytes => true
  | .invsubbytes => true
  | .shiftrows => true
  | .invshiftrows => true
  | .mixcolumns => true
  | .invmixcolumns => true
  | .addroundkey rnd => legalRound rnd
  | .encround rnd => legalRound rnd
  | .decround rnd => legalRound rnd
  | .pad => true
  | .unpad => true
  | .cbcenc => true
  | .cbcdec => true

end Sys2Proof
end

