-- ==== Sys2Proof/Decode.lean ====
section
/-! DEFINITION. Decoding a 32-bit command word (30_encoding.md R300 to R305), total, every illegal word rejected by name,
and the encoder written from the same table (R303). -/

namespace Sys2Proof

/-- Why a word is illegal: the four kinds of R305. Each of them makes the command complete with IllegalCommand (R811). -/
inductive DecodeError where
  /-- RSV (bits 31:12) is not zero. -/
  | reservedBits
  /-- OPC (bits 7:0) is not in the opcode table. -/
  | unknownOpcode
  /-- RND (bits 11:8) is 11 to 15 on ADDROUNDKEY, ENCROUND or DECROUND. -/
  | roundOutOfRange
  /-- RND is not zero on a command that takes no round number. -/
  | roundNotZero
  deriving DecidableEq, Repr

/-- The field OPC, bits 7:0 (R300). -/
def opcField (v : Word) : Byte := v.extractLsb' 0 8

/-- The field RND, bits 11:8 (R300). -/
def rndField (v : Word) : BitVec 4 := v.extractLsb' 8 4

/-- The field RSV, bits 31:12 (R300). -/
def rsvField (v : Word) : BitVec 20 := v.extractLsb' 12 20

/-- The rows of R303 whose RND column is 0. -/
def plainOpcode (opc : Byte) : Option Instr :=
  match opc.toNat with
  | 0x00 => some .nop
  | 0x01 => some .keyld
  | 0x02 => some .keyexp
  | 0x03 => some .encblk
  | 0x04 => some .decblk
  | 0x08 => some .gfmul
  | 0x09 => some .gfdbl
  | 0x0A => some .sbox
  | 0x0B => some .invsbox
  | 0x10 => some .subbytes
  | 0x11 => some .invsubbytes
  | 0x12 => some .shiftrows
  | 0x13 => some .invshiftrows
  | 0x14 => some .mixcolumns
  | 0x15 => some .invmixcolumns
  | 0x20 => some .pad
  | 0x21 => some .unpad
  | 0x30 => some .cbcenc
  | 0x31 => some .cbcdec
  | _ => none

/-- The rows of R303 whose RND column is 0..10. -/
def roundOpcode (opc : Byte) (rnd : BitVec 4) : Option Instr :=
  match opc.toNat with
  | 0x16 => some (.addroundkey rnd)
  | 0x18 => some (.encround rnd)
  | 0x19 => some (.decround rnd)
  | _ => none

/-- `Decode(v)` (R304). -/
def decode (v : Word) : Except DecodeError Instr :=
  if rsvField v ≠ 0 then .error .reservedBits
  else
    match roundOpcode (opcField v) (rndField v), plainOpcode (opcField v) with
    | some i, _ => if legalRound (rndField v) then .ok i else .error .roundOutOfRange
    | none, some i => if rndField v = 0 then .ok i else .error .roundNotZero
    | none, none => .error .unknownOpcode

/-- OPC of a command (R303). -/
def opcodeOf : Instr → Byte
  | .nop => 0x00
  | .keyld => 0x01
  | .keyexp => 0x02
  | .encblk => 0x03
  | .decblk => 0x04
  | .gfmul => 0x08
  | .gfdbl => 0x09
  | .sbox => 0x0A
  | .invsbox => 0x0B
  | .subbytes => 0x10
  | .invsubbytes => 0x11
  | .shiftrows => 0x12
  | .invshiftrows => 0x13
  | .mixcolumns => 0x14
  | .invmixcolumns => 0x15
  | .addroundkey _ => 0x16
  | .encround _ => 0x18
  | .decround _ => 0x19
  | .pad => 0x20
  | .unpad => 0x21
  | .cbcenc => 0x30
  | .cbcdec => 0x31

/-- RND of a command, 0 where the command takes no round number (R301). -/
def roundOf : Instr → BitVec 4
  | .nop => 0
  | .keyld => 0
  | .keyexp => 0
  | .encblk => 0
  | .decblk => 0
  | .gfmul => 0
  | .gfdbl => 0
  | .sbox => 0
  | .invsbox => 0
  | .subbytes => 0
  | .invsubbytes => 0
  | .shiftrows => 0
  | .invshiftrows => 0
  | .mixcolumns => 0
  | .invmixcolumns => 0
  | .addroundkey rnd => rnd
  | .encround rnd => rnd
  | .decround rnd => rnd
  | .pad => 0
  | .unpad => 0
  | .cbcenc => 0
  | .cbcdec => 0

/-- The command word of a command: RSV = 0, RND, OPC (R300, R303). -/
def encode (i : Instr) : Word := (0 : BitVec 20) ++ (roundOf i ++ opcodeOf i)

/-- What `decode` reads from the instruction whose `nbits` bits are `w`, every bit above them 0. A command word is one
32-bit bus word, so there is no byte order to lay it out in (R243, R300). -/
def decodeTableWord (nbits w : Nat) : Option Instr :=
  match decode (BitVec.ofNat 32 (w % 2 ^ nbits)) with
  | .ok i => some i
  | .error _ => none

end Sys2Proof
end

