-- ==== Sys2Proof/Config.lean ====
section
/-! DEFINITION. What an implementation fixes (the parameter BUF_SIZE) and the free values the spec leaves open. -/

namespace Sys2Proof

/-- The parameters of one instance of the hardware. `bufSize` is BUF_SIZE (R11, PAR1); it is fixed while the machine runs
and no step changes it (log entry 1). BASE, the IRQ wiring and the time of a command are read by no rule (PAR2 to PAR4). -/
structure Config where
  bufSize : Nat
  deriving DecidableEq, Repr

namespace Config

/-- The default BUF_SIZE, 4096 (R11). -/
def standard : Config := { bufSize := 4096 }

/-- Legal values of BUF_SIZE: multiples of 16 with 32 <= BUF_SIZE <= 61440 (R11). -/
def legal (c : Config) : Bool := decide (c.bufSize % 16 = 0 ∧ 32 ≤ c.bufSize ∧ c.bufSize ≤ 61440)

/-- FREE VALUE (R900, R902, S3, S4): `freeBufByte d a` is byte `a` of the d-th draw of BUF, what BUF[a] holds after a
reset until it is written. No value of it can be proved (log entry 2). -/
opaque freeBufByte : Nat → Nat → BitVec 8

/-- FREE VALUE (R912, S1): the 32-bit word that the n-th read of a register the running command may write returns
(log entry 3). -/
opaque freeReadWord : Nat → BitVec 32

/-- FREE VALUE (R912, S2): STATUS.KV as the n-th read made while a command runs shows it (log entry 3). -/
opaque freeKv : Nat → Bool

end Config

end Sys2Proof
end

