-- ==== Sys2Proof/Machine/State.lean ====
section
/-! DEFINITION. The state of the machine (10_state.md R101), the requests of the host (20_memory.md R210), the reasons a
step can stop, and the state after reset (70_reset_and_hazards.md R900). -/

namespace Sys2Proof.Machine

/-- The errors a command can complete with (R810). They are completion statuses, no faults of the machine (R800); the
values 7 to 15 of ERRCODE do not exist. -/
inductive CmdError where
  | sizeMismatch
  | padding
  | malformedCiphertext
  | illegalCommand
  | range
  | overlap
  deriving DecidableEq, Repr

/-- A request of the host at the bus port (R210). -/
inductive BusRequest where
  | read (off : Offset)
  | write (off : Offset) (data : Word)
  deriving DecidableEq, Repr

/-- An answer of the bus port (R210): `OK(data)` to a read, `OK` to a write, or `ERR`. -/
inductive BusResponse where
  | data (w : Word)
  | ok
  | err
  deriving DecidableEq, Repr

/-- The steps of the hardware (R841): a host request, the core's turn (the completion step, when a command runs), and
reset. The list of them in `State` is the interleaving one execution takes (log entry 4). -/
inductive Event where
  | bus (req : BusRequest)
  | core
  | reset
  deriving DecidableEq, Repr

/-- The bytes of BUF written since the last reset, as address and byte pairs, addresses strictly rising. An address that
is not listed has no written value (log entry 2). -/
abbrev Memory := List Host.Cell

/-- The state (R101): every register, the round-key file, the buffer and the command latch; the parameter of the
machine; and the model's own fields, which stand for the outside world and the free values. -/
structure State where
  /-- BUF_SIZE, the parameter (R11). No step changes it. -/
  config : Config
  /-- CMD: the last accepted command word (R113). -/
  cmd : Word
  /-- The command latch (R141): the command in flight. STATUS.BUSY is 1 exactly when there is one (R700). -/
  latch : Option Word
  /-- STATUS.DONE (R114). -/
  done : Bool
  /-- STATUS.ERRCODE, and STATUS.ERR = (ERRCODE != 0) (R114). -/
  errcode : Option CmdError
  /-- STATUS.KV (R114, R118). -/
  kv : Bool
  /-- STATUS.HZ (R114, R911). -/
  hz : Bool
  /-- CONFIG.IE (R116). -/
  ie : Bool
  /-- SRC (R108). -/
  src : Word
  /-- DST (R109). -/
  dst : Word
  /-- LEN (R110). -/
  len : Word
  /-- OUTLEN (R111). -/
  outlen : Word
  /-- KEY (R103). -/
  key : Block
  /-- IV (R104). -/
  iv : Block
  /-- STATE (R105). -/
  state : Block
  /-- OPA (R106). -/
  opa : Byte
  /-- OPB (R106). -/
  opb : Byte
  /-- RES (R107). -/
  res : Byte
  /-- RK[0..10] (R117). -/
  rk : RoundKeys
  /-- BUF, the bytes written since reset (R200). -/
  buf : Memory
  /-- The model's own: which draw the unwritten bytes of BUF hold (R902). -/
  bufDraw : Nat
  /-- The model's own: how many free values reads have drawn (R912). -/
  freeReads : Nat
  /-- The model's own: the bus port's answer to the last request (R210). -/
  response : Option BusResponse
  /-- The model's own: the events to come, the first one next (R841). -/
  events : List Event
  deriving DecidableEq, Repr

/-- The reasons a step stops with a fault: none. Every error of the hardware is a completion status (R800) or a bus
response (R813), and a model treats it "not as a fault of the model" (R800). Safe: nothing is hidden behind a fault. -/
inductive Fault where
  deriving DecidableEq, Repr

/-- The reasons a step is refused. -/
inductive Refusal where
  /-- Raised by an arm of `exec` whose instruction has no meaning yet; no arm raises it now. Safe. -/
  | notModelled (mnemonic : String)
  deriving DecidableEq, Repr

/-- What a step, and an instruction's meaning, answers. -/
abbrev Out := Host.Outcome State Fault Refusal

/-- The reset values of R900 for a machine with parameter `c`, BUF holding the draw `d`: a function of the draw (R902). -/
def State.resetWith (c : Config) (d : Nat) : State where
  config := c
  cmd := 0
  latch := none
  done := false
  errcode := none
  kv := false
  hz := false
  ie := false
  src := 0
  dst := 0
  len := 0
  outlen := 0
  key := Vector.replicate 16 0
  iv := Vector.replicate 16 0
  state := Vector.replicate 16 0
  opa := 0
  opb := 0
  res := 0
  rk := Vector.replicate 11 (Vector.replicate 16 0)
  buf := []
  bufDraw := d
  freeReads := 0
  response := none
  events := []

/-- The machine right after reset, with the default BUF_SIZE (R11, R900). -/
def State.reset : State := State.resetWith Config.standard 0

end Sys2Proof.Machine
end

