-- ==== Sys2Proof/Machine/Bytes.lean ====
section
/-! DEFINITION. Byte sequences, blocks, the state indexing `B(r, c)`, and the byte lanes of a bus word
(00_scope.md R16, R17; 20_memory.md R220; 41_state_and_rounds.md R450). -/

namespace Sys2Proof.Machine

/-- `B(r, c) = B[r + 4*c]`, row and column taken mod 4 (R17, R450). -/
def cell (B : Block) (r c : Nat) : Byte := B[r % 4 + 4 * (c % 4)]

/-- The block whose state element in row r and column c is `f r c` (R17, R450). -/
def blockOfCells (f : Nat → Nat → Byte) : Block := Vector.ofFn fun k => f (k.val % 4) (k.val / 4)

/-- The block whose byte k is `f` of the byte k of `B`. -/
def mapBytes (f : Byte → Byte) (B : Block) : Block := Vector.ofFn fun k => f B[k]

/-- `d ^ e` on blocks: the bytewise exclusive OR (R16). -/
def xorBlock (B D : Block) : Block := Vector.ofFn fun k => B[k] ^^^ D[k]

/-- The block `d[a..<a+16]` of a byte sequence that holds those bytes (R16). -/
def blockAt (d : List Byte) (a : Nat) : Block := Vector.ofFn fun k => d.getD (a + k.val) 0

/-- The blocks of a byte sequence, in order: block k is bytes 16k to 16k+15 (R221). -/
def blocksOf (d : List Byte) : List Block := (List.range (d.length / 16)).map fun k => blockAt d (16 * k)

/-- The concatenation of blocks (R16, R221). -/
def bytesOf (bs : List Block) : List Byte := bs.flatMap fun B => B.toList

/-- Bits [8i+7:8i] of a bus word (R220). -/
def lane (v : Word) (i : Nat) : Byte := v.extractLsb' (8 * i) 8

/-- The bus word whose byte lanes 0 to 3 are the four bytes (R220). -/
def wordOfLanes (b0 b1 b2 b3 : Byte) : Word :=
  b0.setWidth 32 ||| (b1.setWidth 32 <<< 8) ||| (b2.setWidth 32 <<< 16) ||| (b3.setWidth 32 <<< 24)

/-- `word(X, j)` of a 16-byte register (R220): column j of the block. -/
def blockWord (X : Block) (j : Nat) : Word := wordOfLanes (cell X 0 j) (cell X 1 j) (cell X 2 j) (cell X 3 j)

/-- A host write of `v` to word j of a 16-byte register: `X[4j+i] <- v[8i+7:8i]` (R220). -/
def setBlockWord (X : Block) (j : Nat) (v : Word) : Block :=
  blockOfCells fun r c => if c = j then lane v r else cell X r c

end Sys2Proof.Machine
end

