-- ==== Sys2Proof/Machine/Gf.lean ====
section
/-! DEFINITION. GF(2^8) arithmetic (40_gf_and_tables.md R400, R401). -/

namespace Sys2Proof.Machine

/-- `GFDouble(a)` (R400): shift left by one bit; where a[7] was 1, XOR with 0x1B; the result masked to 8 bits. -/
def gfDouble (a : Byte) : Byte := if a.getLsbD 7 then (a <<< 1) ^^^ 0x1B else a <<< 1

/-- `n` turns of the loop of R401 on `a`, `b` and the accumulator. -/
def gfMulLoop : Nat → Byte → Byte → Byte → Byte
  | 0, _, _, acc => acc
  | n + 1, a, b, acc => gfMulLoop n (gfDouble a) (b >>> 1) (if b.getLsbD 0 then acc ^^^ a else acc)

/-- `GFMul(a, b)` (R401): eight turns from an accumulator of 0x00. -/
def gfMul (a b : Byte) : Byte := gfMulLoop 8 a b 0x00

end Sys2Proof.Machine
end

