-- ==== Sys2Proof/Machine/Transforms.lean ====
section
/-! DEFINITION. The round transformations and the round compositions (41_state_and_rounds.md R453 to R462). Each is a
function from the whole input block to the whole output block (R452). -/

namespace Sys2Proof.Machine

/-- `SubBytes(B)` (R453). -/
def subBytes (B : Block) : Block := mapBytes sbox B

/-- `InvSubBytes(B)` (R454). -/
def invSubBytes (B : Block) : Block := mapBytes invSbox B

/-- `ShiftRows(B)` (R455): row r rotated left by r positions. -/
def shiftRows (B : Block) : Block := blockOfCells fun r c => cell B r (c + r)

/-- `InvShiftRows(B)` (R456): row r rotated right by r positions, `(c - r) mod 4` written `(c + 4 - r) mod 4`. -/
def invShiftRows (B : Block) : Block := blockOfCells fun r c => cell B r (c + 4 - r)

/-- The coefficient list of MixColumns (R457). -/
def mixCoefficients : Vector Byte 4 := #v[0x02, 0x03, 0x01, 0x01]

/-- The coefficient list of InvMixColumns (R458). -/
def invMixCoefficients : Vector Byte 4 := #v[0x0E, 0x0B, 0x0D, 0x09]

/-- The cyclic matrix of a coefficient list, row r the list rotated right by r: `M[r][j] = m[(j - r) mod 4]`
(R457, R458, C2), for r at most 4. -/
def matrixEntry (m : Vector Byte 4) (r j : Nat) : Byte := m[(j + 4 - r) % 4]

/-- Each column replaced by the product of the matrix and the column (R457, R458). -/
def mixWith (m : Vector Byte 4) (B : Block) : Block :=
  blockOfCells fun r c =>
    gfMul (matrixEntry m r 0) (cell B 0 c) ^^^ gfMul (matrixEntry m r 1) (cell B 1 c) ^^^
      gfMul (matrixEntry m r 2) (cell B 2 c) ^^^ gfMul (matrixEntry m r 3) (cell B 3 c)

/-- `MixColumns(B)` (R457). -/
def mixColumns (B : Block) : Block := mixWith mixCoefficients B

/-- `InvMixColumns(B)` (R458). -/
def invMixColumns (B : Block) : Block := mixWith invMixCoefficients B

/-- `AddRoundKey(B, K)` (R459). -/
def addRoundKey (B K : Block) : Block := xorBlock B K

/-- `EncRound(B, RK, k)` (R461). -/
def encRound (B : Block) (rk : RoundKeys) (k : Fin 11) : Block :=
  if k.val = 0 then addRoundKey B rk[k]
  else if k.val = 10 then addRoundKey (shiftRows (subBytes B)) rk[k]
  else addRoundKey (mixColumns (shiftRows (subBytes B))) rk[k]

/-- `DecRound(B, RK, k)` (R462). -/
def decRound (B : Block) (rk : RoundKeys) (k : Fin 11) : Block :=
  if k.val = 0 then addRoundKey B rk[k]
  else if k.val = 10 then invSubBytes (invShiftRows (addRoundKey B rk[k]))
  else invSubBytes (invShiftRows (invMixColumns (addRoundKey B rk[k])))

end Sys2Proof.Machine
end

