-- ==== Sys2Proof/Machine/KeySchedule.lean ====
section
/-! DEFINITION. The AES-128 key schedule (42_key_schedule.md R500 to R504). -/

namespace Sys2Proof.Machine

/-- A key-schedule word: four consecutive bytes (R500, R501). -/
abbrev KeyWord := Vector Byte 4

/-- Word j of a key: bytes 4j to 4j+3, its column j (R501). -/
def wordOfKey (K : Block) (j : Nat) : KeyWord := #v[cell K 0 j, cell K 1 j, cell K 2 j, cell K 3 j]

/-- Rotate a word left by one byte: (a0, a1, a2, a3) to (a1, a2, a3, a0) (R501). -/
def rotWord (t : KeyWord) : KeyWord := #v[t[1], t[2], t[3], t[0]]

/-- Substitute each byte of a word by the forward table (R500). -/
def subWord (t : KeyWord) : KeyWord := #v[sbox t[0], sbox t[1], sbox t[2], sbox t[3]]

/-- XOR the round constant into the first byte of a word (R500, R501). -/
def addConstant (t : KeyWord) (rc : Byte) : KeyWord := #v[t[0] ^^^ rc, t[1], t[2], t[3]]

/-- The exclusive OR of two words (R500). -/
def xorWord (t u : KeyWord) : KeyWord := #v[t[0] ^^^ u[0], t[1] ^^^ u[1], t[2] ^^^ u[2], t[3] ^^^ u[3]]

/-- What the loop of R500 holds before it makes word i: the words i-4 to i-1 and the running round constant. -/
structure KeyWindow where
  w0 : KeyWord
  w1 : KeyWord
  w2 : KeyWord
  w3 : KeyWord
  rc : Byte
  deriving DecidableEq, Repr

/-- One turn of the loop of R500, for word i. -/
def keyStep (i : Nat) (g : KeyWindow) : KeyWindow :=
  if i % 4 = 0 then
    ⟨g.w1, g.w2, g.w3, xorWord (addConstant (subWord (rotWord g.w3)) g.rc) g.w0, gfDouble g.rc⟩
  else ⟨g.w1, g.w2, g.w3, xorWord g.w3 g.w0, g.rc⟩

/-- The loop of R500 after its first `n` turns, those for the words 4 to n+3. -/
def keyWindow (K : Block) : Nat → KeyWindow
  | 0 => ⟨wordOfKey K 0, wordOfKey K 1, wordOfKey K 2, wordOfKey K 3, 0x01⟩
  | n + 1 => keyStep (n + 4) (keyWindow K n)

/-- The key-schedule word `w[i]` (R500). -/
def keyWord (K : Block) (i : Nat) : KeyWord := (keyWindow K i).w0

/-- `KeyExpansion(K)` (R500): byte `i + 4j` of RK[k] is byte i of `w[4k+j]` (R503). -/
def keyExpansion (K : Block) : RoundKeys :=
  Vector.ofFn fun k => Vector.ofFn fun b => (keyWord K (4 * k.val + b.val / 4))[b.val % 4]

end Sys2Proof.Machine
end

