-- ==== Sys2Proof/Machine/Cipher.lean ====
section
/-! DEFINITION. The block cipher (43_block_cipher.md R550, R551), the padding functions (44_padding.md R600, R602) and the
chaining functions of CBC (45_cbc.md R650, R651). -/

namespace Sys2Proof.Machine

/-- The round numbers 0 to 10, in order. -/
def roundNumbers : List (Fin 11) := [0, 1, 2, 3, 4, 5, 6, 7, 8, 9, 10]

/-- `Cipher(B, RK)` (R550). -/
def cipher (B : Block) (rk : RoundKeys) : Block := roundNumbers.foldl (fun s k => encRound s rk k) B

/-- `InvCipher(B, RK)` (R551). -/
def invCipher (B : Block) (rk : RoundKeys) : Block := roundNumbers.reverse.foldl (fun s k => decRound s rk k) B

/-- The number of pad bytes for data of length L: `16 - (L mod 16)` (R600, R605). -/
def padCount (L : Nat) : Nat := 16 - L % 16

/-- The pad bytes for data of length L: n bytes each equal to n (R600). -/
def padBytes (L : Nat) : List Byte := List.replicate (padCount L) (BitVec.ofNat 8 (padCount L))

/-- `Pad(d)` (R600). -/
def padData (d : List Byte) : List Byte := d ++ padBytes d.length

/-- `PadCheck(d)` (R602): the length of the unpadded data, or nothing where it fails. Only the last byte is examined;
empty data and a pad count above the length fail (R603). -/
def padCheck (d : List Byte) : Option Nat :=
  match d.getLast? with
  | none => none
  | some n =>
    if n.toNat < 1 ∨ n.toNat > 16 then none
    else if n.toNat > d.length then none
    else some (d.length - n.toNat)

/-- The chain of R650: each block XORed with the previous ciphertext block and encrypted. -/
def chainEncrypt (rk : RoundKeys) : Block → List Block → List Block
  | _, [] => []
  | prev, q :: qs => cipher (xorBlock q prev) rk :: chainEncrypt rk (cipher (xorBlock q prev) rk) qs

/-- `CbcEncrypt(P, RK, IV)` (R650). -/
def cbcEncrypt (P : List Byte) (rk : RoundKeys) (iv : Block) : List Byte :=
  bytesOf (chainEncrypt rk iv (blocksOf (padData P)))

/-- The chain of R651: each block decrypted and XORed with the previous ciphertext block, IV before the first. -/
def chainDecrypt (rk : RoundKeys) : Block → List Block → List Block
  | _, [] => []
  | chain, c :: cs => xorBlock (invCipher c rk) chain :: chainDecrypt rk c cs

/-- `CbcDecryptRaw(C, RK, IV)` (R651): the padded plaintext. -/
def cbcDecryptRaw (C : List Byte) (rk : RoundKeys) (iv : Block) : List Byte :=
  bytesOf (chainDecrypt rk iv (blocksOf C))

end Sys2Proof.Machine
end

