-- ==== Sys2Proof/Machine/Ops.lean ====
section
/-! DEFINITION. The shared operations: the data buffer (20_memory.md R200, R205; 00_scope.md R19), the registers a command
writes, key-schedule expansion (42_key_schedule.md R522), and the acceptance and completion of a command
(46_control.md R701, R702), with errors (60_exceptions.md R800, R830). -/

namespace Sys2Proof.Machine

/-- The canonical form of the buffer's list: addresses strictly rising. An unlisted address has no written value, so no
entry can equal what an unlisted one holds. -/
def Memory.wf (m : Memory) : Bool := decide (m.Pairwise fun c d => c.1 < d.1)

/-- The byte written at an address since reset, if any. -/
def lookupByte : Memory → Nat → Option Byte
  | [], _ => none
  | (a, b) :: m, x => if x = a then some b else lookupByte m x

/-- The list after a byte is written at an address; it keeps the canonical form. -/
def storeByte : Memory → Nat → Byte → Memory
  | [], x, v => [(x, v)]
  | (a, b) :: m, x, v =>
    if x < a then (x, v) :: (a, b) :: m
    else if x = a then (x, v) :: m
    else (a, b) :: storeByte m x v

/-- The list after a byte sequence is written from an address up: byte i at `x + i` (R19). -/
def storeBytes : Memory → Nat → List Byte → Memory
  | m, _, [] => m
  | m, x, v :: vs => storeBytes (storeByte m x v) (x + 1) vs

namespace State

/-- `BUF[a]`: the byte written there since reset, else the byte of the reset's draw, a free value (R900, R902). -/
def bufByte (s : State) (a : Nat) : Byte := (lookupByte s.buf a).getD (Config.freeBufByte s.bufDraw a)

/-- `MemRead(a, n)` (R19). -/
def memRead (s : State) (a n : Nat) : List Byte := (List.range n).map fun i => s.bufByte (a + i)

/-- `MemRead(a, 16)` as a block (R16, R19). -/
def readBlock (s : State) (a : Nat) : Block := blockAt (s.memRead a 16) 0

/-- `MemWrite(a, n, v)` with n the length of v (R19). -/
def memWrite (s : State) (a : Nat) (v : List Byte) : State := { s with buf := storeBytes s.buf a v }

/-- `RES <- v` (R107). -/
def setRes (s : State) (v : Byte) : State := { s with res := v }

/-- `STATE <- B` (R105). -/
def setState (s : State) (B : Block) : State := { s with state := B }

/-- `OUTLEN <- n` (R111), n a byte length the checks keep below 2^32. -/
def setOutlen (s : State) (n : Nat) : State := { s with outlen := BitVec.ofNat 32 n }

/-- `KEY <- K` by KEYLD or the host, which clears STATUS.KV (R103, R118). -/
def loadKey (s : State) (K : Block) : State := { s with key := K, kv := false }

/-- `RK <- KeyExpansion(KEY); STATUS.KV <- 1`, all 11 entries at once (R117, R520). -/
def expandKey (s : State) : State := { s with rk := keyExpansion s.key, kv := true }

/-- `EnsureRoundKeys()` (R522). -/
def ensureRoundKeys (s : State) : State := if s.kv then s else s.expandKey

/-- Acceptance of a command word while Idle (R701). It does not decode the word. -/
def accept (s : State) (v : Word) : State :=
  { s with cmd := v, latch := some v, done := false, errcode := none }

/-- Completion of the command in flight (R702), with the code of the error it raised, if any. -/
def complete (s : State) (e : Option CmdError) : State :=
  { s with errcode := e, latch := none, done := true }

/-- A command ends without error: ERRCODE 0 (R702, R704). -/
def succeed (s : State) : Out := .next (s.complete none)

/-- `raise E` (R20): the command ends at once and completes with the error's code. This is all the hardware has for an
exception: nothing is saved and control goes nowhere (R800, R850). -/
def raiseError (s : State) (e : CmdError) : Out := .next (s.complete (some e))

/-- `raise E` in a buffer-producing command, E not IllegalCommand: OUTLEN becomes 0 too (R111, R830 (c)). -/
def raiseBuffer (s : State) (e : CmdError) : Out := (s.setOutlen 0).raiseError e

end State

end Sys2Proof.Machine
end

