-- ==== Sys2Proof/Machine/Flags.lean ====
section
/-! DEFINITION. The STATUS register (10_state.md R114, R115), the error codes (60_exceptions.md R810) and the interrupt
output (R840). No command reads a flag as an operand and none sets a flag from its data result (R131). -/

namespace Sys2Proof.Machine

/-- The code of an error (R810). -/
def errorCode : CmdError → BitVec 4
  | .sizeMismatch => 1
  | .padding => 2
  | .malformedCiphertext => 3
  | .illegalCommand => 4
  | .range => 5
  | .overlap => 6

/-- The ERRCODE field: 0 where the last command succeeded (R114). -/
def errcodeField : Option CmdError → BitVec 4
  | none => 0
  | some e => errorCode e

/-- A one-bit field at bit i of a word. -/
def flagAt (b : Bool) (i : Nat) : Word := (BitVec.ofBool b).setWidth 32 <<< i

/-- The STATUS word of its fields: BUSY 0, DONE 1, ERR 2, KV 3, HZ 4, ERRCODE 11:8, the rest 0 (R114). -/
def statusWord (busy done err kv hz : Bool) (code : BitVec 4) : Word :=
  flagAt busy 0 ||| flagAt done 1 ||| flagAt err 2 ||| flagAt kv 3 ||| flagAt hz 4 ||| (code.setWidth 32 <<< 8)

namespace State

/-- STATUS.BUSY: a command is in flight (R700). -/
def busy (s : State) : Bool := s.latch.isSome

/-- STATUS.ERR, always equal to (ERRCODE != 0) (R114). -/
def err (s : State) : Bool := decide (errcodeField s.errcode ≠ 0)

/-- STATUS as a read shows it while Idle (R114). -/
def status (s : State) : Word := statusWord s.busy s.done s.err s.kv s.hz (errcodeField s.errcode)

/-- STATUS as a read shows it while a command runs: BUSY 1, DONE, ERR and ERRCODE 0, HZ its value, KV the bit given
(R912). -/
def busyStatus (s : State) (shownKv : Bool) : Word := statusWord true false false shownKv s.hz 0

/-- The interrupt output, `CONFIG.IE AND STATUS.DONE` (R142, R840). -/
def irq (s : State) : Bool := s.ie && s.done

/-- A host write to STATUS while Idle: bit 1 clears DONE, bit 4 clears HZ, nothing else (R115). -/
def writeStatus (s : State) (v : Word) : State :=
  { s with done := s.done && !v.getLsbD 1, hz := s.hz && !v.getLsbD 4 }

end State

end Sys2Proof.Machine
end

