-- ==== Sys2Proof/Machine/Operands.lean ====
section
/-! DEFINITION. The operands of the commands (30_encoding.md R301, R302): the round number, and the regions of the buffer
with their checks, in the order of 60_exceptions.md R820. -/

namespace Sys2Proof.Machine

/-- `k = zext(RND)` as the index of a round key, where it is legal (R301). -/
def roundIndex (rnd : BitVec 4) : Option (Fin 11) :=
  if h : rnd.toNat ≤ 10 then some ⟨rnd.toNat, by omega⟩ else none

/-- `Overlaps(a, n, b, m)` (R202). -/
def overlaps (a n b m : Nat) : Bool := decide (n > 0 ∧ m > 0 ∧ a < b + m ∧ b < a + n)

/-- `BadOverlap(a, n, b, m)` (R202): the regions overlap and do not start together. -/
def badOverlap (a n b m : Nat) : Bool := overlaps a n b m && decide (a ≠ b)

/-- The length of the output of CBCENC: `16 * (L div 16 + 1)` (R660). -/
def paddedLength (L : Nat) : Nat := 16 * (L / 16 + 1)

namespace State

/-- `InRange(a, n)`, in exact integers (R201). -/
def inRange (s : State) (a n : Nat) : Bool := decide (a + n ≤ s.config.bufSize)

/-- SRC as a buffer address (R108). -/
def srcAddr (s : State) : Nat := s.src.toNat

/-- DST as a buffer address (R109). -/
def dstAddr (s : State) : Nat := s.dst.toNat

/-- LEN as a byte length (R110). -/
def length (s : State) : Nat := s.len.toNat

/-- The Range check on an input and an output region, then the Overlap check on the two (R820 (3), (4)). -/
def regionError (s : State) (n m : Nat) : Option CmdError :=
  if !(s.inRange s.srcAddr n && s.inRange s.dstAddr m) then some .range
  else if badOverlap s.srcAddr n s.dstAddr m then some .overlap
  else none

/-- The checks of ENCBLK and DECBLK (R560, R561, R820). -/
def blockError (s : State) : Option CmdError :=
  if s.length ≠ 16 then some .sizeMismatch else s.regionError 16 16

/-- The checks of KEYLD (R521, R820). -/
def keyldError (s : State) : Option CmdError :=
  if s.length ≠ 16 then some .sizeMismatch
  else if !(s.inRange s.srcAddr 16) then some .range
  else none

/-- The checks of CBCENC (R660, R820). -/
def cbcencError (s : State) : Option CmdError := s.regionError s.length (paddedLength s.length)

/-- The checks of CBCDEC made before the decryption (R661, R820). -/
def cbcdecError (s : State) : Option CmdError :=
  if s.length = 0 ∨ s.length % 16 ≠ 0 then some .malformedCiphertext
  else s.regionError s.length s.length

end State

end Sys2Proof.Machine
end

