-- ==== Sys2Proof/Machine/Bus.lean ====
section
/-! DEFINITION. The bus slave port: the register map (10_state.md R102), reads and writes while Idle (R103 to R120,
20_memory.md R210 to R220) and while a command runs (70_reset_and_hazards.md R911, R912). -/

namespace Sys2Proof.Machine

/-- What a word-aligned offset of the window names (R102). -/
inductive BusTarget where
  | cmd
  | status
  | config
  | id
  | src
  | dst
  | len
  | outlen
  | key (j : Nat)
  | iv (j : Nat)
  | state (j : Nat)
  | opa
  | opb
  | res
  | rk (k : Fin 11) (j : Nat)
  | buf (a : Nat)
  | reserved
  deriving DecidableEq, Repr

/-- The registers at 0x000 to 0x01C, by their word index (R102). -/
def controlTarget (w : Nat) : BusTarget :=
  match w with
  | 0 => .cmd
  | 1 => .status
  | 2 => .config
  | 3 => .id
  | 4 => .src
  | 5 => .dst
  | 6 => .len
  | 7 => .outlen
  | _ => .reserved

/-- The registers at 0x050 to 0x058, by their word index from 0x050 (R102). -/
def byteTarget (w : Nat) : BusTarget :=
  match w with
  | 0 => .opa
  | 1 => .opb
  | 2 => .res
  | _ => .reserved

/-- The register map (R102, R230) at the byte offset n; `j` is the word of a 16-byte register. -/
def targetAt (bufSize n : Nat) : BusTarget :=
  if n < 0x020 then controlTarget (n / 4)
  else if n < 0x030 then .key ((n - 0x020) / 4)
  else if n < 0x040 then .iv ((n - 0x030) / 4)
  else if n < 0x050 then .state ((n - 0x040) / 4)
  else if n < 0x100 then byteTarget ((n - 0x050) / 4)
  else if h : n < 0x1B0 then .rk ⟨(n - 0x100) / 16, by omega⟩ ((n - 0x100) / 4 % 4)
  else if n < 0x1000 then .reserved
  else if n < 0x1000 + bufSize then .buf (n - 0x1000)
  else .reserved

/-- What a bus offset names. -/
def busTarget (bufSize : Nat) (off : Offset) : BusTarget := targetAt bufSize off.toNat

/-- Every bus access must be word-aligned: off[1:0] = 0 (R211). -/
def aligned (off : Offset) : Bool := decide (off.toNat % 4 = 0)

/-- The ID register, a constant (R112). -/
def idValue : Word := 0x41450107

namespace State

/-- The register or buffer word an offset names on this machine. -/
def target (s : State) (off : Offset) : BusTarget := busTarget s.config.bufSize off

/-- The buffer word at buffer address a (R220). -/
def bufWord (s : State) (a : Nat) : Word :=
  wordOfLanes (s.bufByte a) (s.bufByte (a + 1)) (s.bufByte (a + 2)) (s.bufByte (a + 3))

/-- What an aligned read returns while Idle (R102 to R120, R220). -/
def idleRead (s : State) : BusTarget → Word
  | .cmd => s.cmd
  | .status => s.status
  | .config => flagAt s.ie 0
  | .id => idValue
  | .src => s.src
  | .dst => s.dst
  | .len => s.len
  | .outlen => s.outlen
  | .key j => blockWord s.key j
  | .iv j => blockWord s.iv j
  | .state j => blockWord s.state j
  | .opa => s.opa.setWidth 32
  | .opb => s.opb.setWidth 32
  | .res => s.res.setWidth 32
  | .rk k j => blockWord s.rk[k] j
  | .buf a => s.bufWord a
  | .reserved => 0

/-- What an aligned read returns while a command runs, the n-th free value drawn (R912). -/
def busyRead (s : State) (n : Nat) : BusTarget → Word
  | .cmd => s.cmd
  | .status => s.busyStatus (Config.freeKv n)
  | .config => flagAt s.ie 0
  | .id => idValue
  | .src => s.src
  | .dst => s.dst
  | .len => s.len
  | .outlen => Config.freeReadWord n
  | .key _ => Config.freeReadWord n
  | .iv j => blockWord s.iv j
  | .state _ => Config.freeReadWord n
  | .opa => s.opa.setWidth 32
  | .opb => s.opb.setWidth 32
  | .res => Config.freeReadWord n
  | .rk _ _ => Config.freeReadWord n
  | .buf _ => Config.freeReadWord n
  | .reserved => 0

/-- The port answers a request; the answer is the model's own field (R210). -/
def respond (s : State) (r : BusResponse) : State := { s with response := some r }

/-- One free value has been drawn. -/
def drawRead (s : State) : State := { s with freeReads := s.freeReads + 1 }

/-- `BusRead(off)` (R210 to R213). A read changes no state of the hardware. -/
def busRead (s : State) (off : Offset) : State :=
  if !aligned off then s.respond .err
  else if s.busy then s.drawRead.respond (.data (s.busyRead s.freeReads (s.target off)))
  else s.respond (.data (s.idleRead (s.target off)))

/-- A write to a BUF word (R220). -/
def writeBufWord (s : State) (a : Nat) (v : Word) : State := s.memWrite a [lane v 0, lane v 1, lane v 2, lane v 3]

/-- What an aligned write does while Idle (R102 to R120, R213, R220). -/
def idleWrite (s : State) (v : Word) : BusTarget → State
  | .cmd => s.accept v
  | .status => s.writeStatus v
  | .config => { s with ie := v.getLsbD 0 }
  | .id => s
  | .src => { s with src := v }
  | .dst => { s with dst := v }
  | .len => { s with len := v }
  | .outlen => s
  | .key j => s.loadKey (setBlockWord s.key j v)
  | .iv j => { s with iv := setBlockWord s.iv j v }
  | .state j => s.setState (setBlockWord s.state j v)
  | .opa => { s with opa := lane v 0 }
  | .opb => { s with opb := lane v 0 }
  | .res => s
  | .rk _ _ => s
  | .buf a => s.writeBufWord a v
  | .reserved => s

/-- An aligned write while a command runs is dropped and sets HZ (R911). -/
def droppedWrite (s : State) : State := { s with hz := true }

/-- `BusWrite(off, data)` (R210 to R213). -/
def busWrite (s : State) (off : Offset) (v : Word) : State :=
  if !aligned off then s.respond .err
  else if s.busy then s.droppedWrite.respond .ok
  else (s.idleWrite v (s.target off)).respond .ok

/-- One request of the host, performed atomically and completely (R210). -/
def busStep (s : State) : BusRequest → State
  | .read off => s.busRead off
  | .write off v => s.busWrite off v

/-- The reset input (R900, R901): every register at its reset value, a running command aborted, BUF a new draw. What is
the world's stays: the parameter, the events to come and the count of free values. -/
def resetStep (s : State) : State :=
  { State.resetWith s.config (s.bufDraw + 1) with freeReads := s.freeReads, events := s.events }

end State

end Sys2Proof.Machine
end

