-- ==== Sys2Proof/Machine/BlockCommands.lean ====
section
/-! DEFINITION. The single-block commands (43_block_cipher.md R560, R561). -/

namespace Sys2Proof.Machine

/-- The writes of ENCBLK and DECBLK once the checks have passed: STATE, BUF[DST..DST+15] and OUTLEN (R560, R561). -/
def State.putBlock (s : State) (B : Block) : State :=
  ((s.setState B).memWrite s.dstAddr B.toList).setOutlen 16

/-- ENCBLK (R560). -/
def execEncblk (s : State) : Out :=
  match s.blockError with
  | some e => s.raiseBuffer e
  | none => (s.ensureRoundKeys.putBlock (cipher (s.readBlock s.srcAddr) s.ensureRoundKeys.rk)).succeed

/-- DECBLK (R561). -/
def execDecblk (s : State) : Out :=
  match s.blockError with
  | some e => s.raiseBuffer e
  | none => (s.ensureRoundKeys.putBlock (invCipher (s.readBlock s.srcAddr) s.ensureRoundKeys.rk)).succeed

end Sys2Proof.Machine
end

