-- ==== Sys2Proof/Machine/ByteCommands.lean ====
section
/-! DEFINITION. The byte-level commands (40_gf_and_tables.md R420 to R423). -/

namespace Sys2Proof.Machine

/-- GFMUL (R420): `RES <- GFMul(OPA, OPB)`. -/
def execGfmul (s : State) : Out := (s.setRes (gfMul s.opa s.opb)).succeed

/-- GFDBL (R421): `RES <- GFDouble(OPA)`. -/
def execGfdbl (s : State) : Out := (s.setRes (gfDouble s.opa)).succeed

/-- SBOX (R422): `RES <- SBOX[OPA]`. -/
def execSbox (s : State) : Out := (s.setRes (sbox s.opa)).succeed

/-- INVSBOX (R423): `RES <- INVSBOX[OPA]`. -/
def execInvsbox (s : State) : Out := (s.setRes (invSbox s.opa)).succeed

end Sys2Proof.Machine
end

