-- ==== Sys2Proof/Machine/CbcCommands.lean ====
section
/-! DEFINITION. The CBC commands (45_cbc.md R660, R661). -/

namespace Sys2Proof.Machine

/-- The result of CBCENC on the input as it was at acceptance (R205, R660). -/
def State.cbcCiphertext (s : State) : List Byte :=
  cbcEncrypt (s.memRead s.srcAddr s.length) s.ensureRoundKeys.rk s.iv

/-- The padded plaintext CBCDEC makes of the input as it was at acceptance (R205, R661). -/
def State.cbcPlaintext (s : State) : List Byte :=
  cbcDecryptRaw (s.memRead s.srcAddr s.length) s.ensureRoundKeys.rk s.iv

/-- The writes of a CBC command's result d: BUF from DST up, and its last block to STATE (R660, R661). -/
def State.putChain (s : State) (d : List Byte) : State :=
  (s.memWrite s.dstAddr d).setState (blockAt d (d.length - 16))

/-- CBCENC (R660). -/
def execCbcenc (s : State) : Out :=
  match s.cbcencError with
  | some e => s.raiseBuffer e
  | none => ((s.ensureRoundKeys.putChain s.cbcCiphertext).setOutlen (paddedLength s.length)).succeed

/-- CBCDEC (R661). After a Padding error the decrypted bytes, STATE and the round keys stay as written (R830 (d)). -/
def execCbcdec (s : State) : Out :=
  match s.cbcdecError with
  | some e => s.raiseBuffer e
  | none =>
    match padCheck s.cbcPlaintext with
    | none => (s.ensureRoundKeys.putChain s.cbcPlaintext).raiseBuffer .padding
    | some r => ((s.ensureRoundKeys.putChain s.cbcPlaintext).setOutlen r).succeed

end Sys2Proof.Machine
end

