-- ==== Sys2Proof/Machine/ControlCommands.lean ====
section
/-! DEFINITION. The control command NOP (46_control.md R710). -/

namespace Sys2Proof.Machine

/-- NOP (R710): nothing but completion. -/
def execNop (s : State) : Out := s.succeed

end Sys2Proof.Machine
end

