-- ==== Sys2Proof/Machine/KeyCommands.lean ====
section
/-! DEFINITION. The key commands (42_key_schedule.md R520, R521). -/

namespace Sys2Proof.Machine

/-- KEYEXP (R520). -/
def execKeyexp (s : State) : Out := s.expandKey.succeed

/-- KEYLD (R521). It produces no buffer result, so its errors leave OUTLEN alone (R111, R830). -/
def execKeyld (s : State) : Out :=
  match s.keyldError with
  | some e => s.raiseError e
  | none => (s.loadKey (s.readBlock s.srcAddr)).succeed

end Sys2Proof.Machine
end

