-- ==== Sys2Proof/Machine/PadCommands.lean ====
section
/-! DEFINITION. The padding commands (44_padding.md R610, R611). -/

namespace Sys2Proof.Machine

/-- PAD (R610). -/
def execPad (s : State) : Out :=
  if !(s.inRange s.srcAddr (s.length + padCount s.length)) then s.raiseBuffer .range
  else
    ((s.memWrite (s.srcAddr + s.length) (padBytes s.length)).setOutlen (s.length + padCount s.length)).succeed

/-- UNPAD (R611). -/
def execUnpad (s : State) : Out :=
  if !(s.inRange s.srcAddr s.length) then s.raiseBuffer .range
  else
    match padCheck (s.memRead s.srcAddr s.length) with
    | none => s.raiseBuffer .padding
    | some r => (s.setOutlen r).succeed

end Sys2Proof.Machine
end

