-- ==== Sys2Proof/Machine/RoundCommands.lean ====
section
/-! DEFINITION. The commands on STATE (41_state_and_rounds.md R470 to R478). -/

namespace Sys2Proof.Machine

/-- SUBBYTES (R470). -/
def execSubbytes (s : State) : Out := (s.setState (subBytes s.state)).succeed

/-- INVSUBBYTES (R471). -/
def execInvsubbytes (s : State) : Out := (s.setState (invSubBytes s.state)).succeed

/-- SHIFTROWS (R472). -/
def execShiftrows (s : State) : Out := (s.setState (shiftRows s.state)).succeed

/-- INVSHIFTROWS (R473). -/
def execInvshiftrows (s : State) : Out := (s.setState (invShiftRows s.state)).succeed

/-- MIXCOLUMNS (R474). -/
def execMixcolumns (s : State) : Out := (s.setState (mixColumns s.state)).succeed

/-- INVMIXCOLUMNS (R475). -/
def execInvmixcolumns (s : State) : Out := (s.setState (invMixColumns s.state)).succeed

/-- A command on STATE with a round number: EnsureRoundKeys, then `STATE <- f(STATE, RK, k)`; IllegalCommand where RND is
not legal, which no decoded command has (R301, R476 to R478). -/
def State.roundCommand (s : State) (rnd : BitVec 4) (f : Block → RoundKeys → Fin 11 → Block) : Out :=
  match roundIndex rnd with
  | none => s.raiseError .illegalCommand
  | some k => (s.ensureRoundKeys.setState (f s.state s.ensureRoundKeys.rk k)).succeed

/-- ADDROUNDKEY k (R476). -/
def execAddroundkey (rnd : BitVec 4) (s : State) : Out := s.roundCommand rnd fun B rk k => addRoundKey B rk[k]

/-- ENCROUND k (R477). -/
def execEncround (rnd : BitVec 4) (s : State) : Out := s.roundCommand rnd encRound

/-- DECROUND k (R478). -/
def execDecround (rnd : BitVec 4) (s : State) : Out := s.roundCommand rnd decRound

end Sys2Proof.Machine
end

