-- ==== Sys2Proof/Machine/Lifecycle.lean ====
section
/-! DEFINITION. The core's step and the steps of the whole machine (46_control.md R700 to R704; 60_exceptions.md R841). -/

namespace Sys2Proof.Machine

/-- `Execute(v)` and completion (R702, R704): a word that does not decode completes with IllegalCommand and changes only
STATUS (R304, R811). -/
def executeWord (v : Word) (s : State) : Out :=
  match decode v with
  | .error _ => s.raiseError .illegalCommand
  | .ok i => exec i s

/-- The core's turn: Complete, when a command is in flight; Idle, it keeps all its state (R702, R865). -/
def coreStep (s : State) : Out :=
  match s.latch with
  | none => .next s
  | some v => executeWord v s

/-- One event, taken from the list it headed (R841). -/
def eventStep (s : State) : Event → Out
  | .bus req => .next (s.busStep req)
  | .core => coreStep s
  | .reset => .next s.resetStep

/-- The state with an instruction word in flight, as the acceptance of a CMD write leaves it (R701), and the core's turn
next. -/
def State.inFlight (s : State) (v : Word) : State := { s.accept v with events := .core :: s.events }

end Sys2Proof.Machine
end

