-- ==== Sys2Proof/Machine/Step.lean ====
section
/-! DEFINITION. The step of the machine, and where the next command word is found. -/

namespace Sys2Proof.Machine

/-- One step (R841): the next event of the list. When no event is listed the turn is the core's, so a command in flight
completes (R705). -/
def step (s : State) : Host.Outcome State Fault Refusal :=
  match s.events with
  | [] => coreStep s
  | e :: es => eventStep { s with events := es } e

/-- `s` with a command word in flight, so that the next step executes exactly it: what the host's CMD write leaves
(R701). Nothing is fetched from a memory (R243). -/
def State.withFetchWord (s : State) (nbits w : Nat) : State := s.inFlight (BitVec.ofNat 32 (w % 2 ^ nbits))

end Sys2Proof.Machine
end

