-- ==== Sys2Proof/Safety.lean ====
section
/-! DEFINITION. What counts as a safe state and a safe run, in the terms the statements use. -/

namespace Sys2Proof.Machine

/-- The buffer's list is in canonical form and lists addresses of BUF only (R200). -/
def State.BufferInside (s : State) : Prop := s.buf.wf = true ∧ ∀ c ∈ s.buf, c.1 < s.config.bufSize

/-- KV = 1 implies RK = KeyExpansion(KEY) (R118). -/
def State.KeysCurrent (s : State) : Prop := s.kv = true → s.rk = keyExpansion s.key

/-- A command in flight is the last accepted word, and DONE and ERRCODE are 0 while it runs (R113, R114, R701). -/
def State.LatchAgrees (s : State) : Prop :=
  ∀ v, s.latch = some v → s.cmd = v ∧ s.done = false ∧ s.errcode = none

/-- What every step keeps: a legal BUF_SIZE and the three properties above. -/
structure State.Inv (s : State) : Prop where
  legalConfig : s.config.legal = true
  bufferInside : s.BufferInside
  keysCurrent : s.KeysCurrent
  latchAgrees : s.LatchAgrees

/-- A run of `k` steps from `s` is safe when it stops at no fault and no refusal. -/
def SafeRun (k : Nat) (s : State) : Prop := ∃ t, core.run k s = .next t

/-- The state with the model's own view of the outside world taken away: the events to come, the port's last answer and
the count of free values. What is left is the hardware (R101). -/
def State.hardware (s : State) : State := { s with events := [], response := none, freeReads := 0 }

/-- Two states are the same hardware state. -/
def State.SameHardware (s t : State) : Prop := s.hardware = t.hardware

end Sys2Proof.Machine
end

