-- ==== Sys2Proof/Certificates/Slice0/Obligations.lean ====
section
/-! DEFINITION. The statements for the provers. They are written in terms of `step`, `exec`, `decode` and the functions
of the spec (00_scope.md R21); the helper definitions at the top say in plain numbers what a rule says. -/

namespace Sys2Proof.Machine

/-- The OPC values that R305 lists as not assigned. -/
abbrev UnassignedOpcode (n : Nat) : Prop :=
  (0x05 ≤ n ∧ n ≤ 0x07) ∨ (0x0C ≤ n ∧ n ≤ 0x0F) ∨ n = 0x17 ∨ (0x1A ≤ n ∧ n ≤ 0x1F) ∨ (0x22 ≤ n ∧ n ≤ 0x2F) ∨ 0x32 ≤ n

/-- The OPC values of ADDROUNDKEY, ENCROUND and DECROUND. -/
abbrev RoundOpcode (n : Nat) : Prop := n = 0x16 ∨ n = 0x18 ∨ n = 0x19

/-- The illegal encodings, as R305 lists them. -/
abbrev IllegalWord (v : Word) : Prop :=
  v.toNat / 4096 ≠ 0 ∨ UnassignedOpcode (v.toNat % 256) ∨
    (RoundOpcode (v.toNat % 256) ∧ 10 < v.toNat / 256 % 16) ∨
    (¬ RoundOpcode (v.toNat % 256) ∧ v.toNat / 256 % 16 ≠ 0)

/-- The state after completion with error code `e`, nothing else changed (R702). -/
def onlyStatus (s : State) (e : Option CmdError) : State := { s with latch := none, done := true, errcode := e }

/-- The state after an error of a buffer-producing command that left the data alone: OUTLEN 0 too (R830). -/
def statusAndOutlen (s : State) (e : CmdError) : State :=
  { s with latch := none, done := true, errcode := some e, outlen := 0 }

/-- The word of a command with no round number, and what every other word of its OPC does (R303 to R305, R830 (b)). -/
def PlainWord (opc : Nat) (i : Instr) : Prop :=
  decode (BitVec.ofNat 32 opc) = .ok i ∧
    ∀ (v : Word) (s : State), v.toNat % 256 = opc → v.toNat ≠ opc →
      executeWord v s = .next (onlyStatus s (some .illegalCommand))

/-- The words of a command with a round number, and what every other word of its OPC does (R303 to R305, R830 (b)). -/
def RoundWord (opc : Nat) (i : BitVec 4 → Instr) : Prop :=
  (∀ k : Nat, k ≤ 10 → decode (BitVec.ofNat 32 (256 * k + opc)) = .ok (i (BitVec.ofNat 4 k))) ∧
    ∀ (v : Word) (s : State), v.toNat % 256 = opc → (10 < v.toNat / 256 % 16 ∨ v.toNat / 4096 ≠ 0) →
      executeWord v s = .next (onlyStatus s (some .illegalCommand))

/-- Two regions overlap and do not start together (R202). -/
abbrev PartlyOverlap (a n b m : Nat) : Prop := 0 < n ∧ 0 < m ∧ a < b + m ∧ b < a + n ∧ a ≠ b

/-- The Range and Overlap checks on an input region (SRC, n) and an output region (DST, m) (R820 (3), (4)). -/
def expectedRegionError (s : State) (n m : Nat) : Option CmdError :=
  if s.config.bufSize < s.src.toNat + n ∨ s.config.bufSize < s.dst.toNat + m then some .range
  else if PartlyOverlap s.src.toNat n s.dst.toNat m then some .overlap
  else none

/-- A padding check on last byte x of data of length L fails (R602, R603). -/
abbrev BadPadding (x L : Nat) : Prop := L = 0 ∨ x = 0 ∨ 16 < x ∨ L < x

/-- The error each command reports, in the check order of the table of R820. -/
def expectedError (s : State) : Instr → Option CmdError
  | .keyld =>
    if s.len.toNat ≠ 16 then some .sizeMismatch
    else if s.config.bufSize < s.src.toNat + 16 then some .range
    else none
  | .encblk => if s.len.toNat ≠ 16 then some .sizeMismatch else expectedRegionError s 16 16
  | .decblk => if s.len.toNat ≠ 16 then some .sizeMismatch else expectedRegionError s 16 16
  | .pad =>
    if s.config.bufSize < s.src.toNat + (s.len.toNat + (16 - s.len.toNat % 16)) then some .range else none
  | .unpad =>
    if s.config.bufSize < s.src.toNat + s.len.toNat then some .range
    else if BadPadding (s.bufByte (s.src.toNat + s.len.toNat - 1)).toNat s.len.toNat then some .padding
    else none
  | .cbcenc => expectedRegionError s s.len.toNat (16 * (s.len.toNat / 16 + 1))
  | .cbcdec =>
    if s.len.toNat = 0 ∨ s.len.toNat % 16 ≠ 0 then some .malformedCiphertext
    else match expectedRegionError s s.len.toNat s.len.toNat with
      | some e => some e
      | none =>
        if BadPadding (s.cbcPlaintext.getD (s.len.toNat - 1) 0).toNat s.len.toNat then some .padding else none
  | .nop | .keyexp | .gfmul | .gfdbl | .sbox | .invsbox | .subbytes | .invsubbytes | .shiftrows | .invshiftrows
  | .mixcolumns | .invmixcolumns => none
  | .addroundkey _ | .encround _ | .decround _ => none

/-- The commands that produce a buffer result (R111, R830 (c)). -/
abbrev BufferProducing (i : Instr) : Prop :=
  i = .encblk ∨ i = .decblk ∨ i = .pad ∨ i = .unpad ∨ i = .cbcenc ∨ i = .cbcdec

/-- The input region of a command, start and length, by the table of R203; length 0 where it reads none. -/
def inputRegion (s : State) : Instr → Nat × Nat
  | .keyld | .encblk | .decblk => (s.src.toNat, 16)
  | .unpad | .cbcenc | .cbcdec => (s.src.toNat, s.len.toNat)
  | _ => (0, 0)

/-- The output region of a command, start and length, by the table of R203; length 0 where it writes none. -/
def outputRegion (s : State) : Instr → Nat × Nat
  | .encblk | .decblk => (s.dstAddr, 16)
  | .pad => (s.srcAddr + s.length, padCount s.length)
  | .cbcenc => (s.dstAddr, paddedLength s.length)
  | .cbcdec => (s.dstAddr, s.length)
  | _ => (0, 0)

/-- An address lies in a region. -/
abbrev Inside (r : Nat × Nat) (a : Nat) : Prop := r.1 ≤ a ∧ a < r.1 + r.2

/-- The commands in a list, each executed on the state the one before it left. -/
def execAll : List Instr → State → Out
  | [], s => .next s
  | i :: is, s =>
    match exec i s with
    | .next t => execAll is t
    | .fault r => .fault r
    | .refused r => .refused r

/-- A host read at an offset, performed now: the port answers the number n and nothing else changes. -/
def ReadsAs (s : State) (off n : Nat) : Prop :=
  ∀ es : List Event, ∃ w : Word, w.toNat = n ∧
    step { s with events := .bus (.read (BitVec.ofNat 16 off)) :: es } =
      .next { s with events := es, response := some (.data w) }

/-- A host write of v at an offset, performed now, makes the hardware `t`, and the port answers OK. -/
def WritesTo (s : State) (off : Nat) (v : Word) (t : State) : Prop :=
  ∀ es : List Event, step { s with events := .bus (.write (BitVec.ofNat 16 off) v) :: es } =
    .next { t with events := es, response := some .ok }

/-- The value of a bus word by its byte lanes (R220). -/
def laneValue (b0 b1 b2 b3 : Byte) : Nat := b0.toNat + 2 ^ 8 * b1.toNat + 2 ^ 16 * b2.toNat + 2 ^ 24 * b3.toNat

/-- Byte lane i of a bus word, as a number (R220). -/
def laneOf (v : Word) (i : Nat) : Nat := v.toNat / 2 ^ (8 * i) % 256

/-- Word j of a 16-byte register as a number (R220). -/
def wordValue (X : Block) (j : Nat) (h : j < 4) : Nat :=
  laneValue (X[4 * j]'(by omega)) (X[4 * j + 1]'(by omega)) (X[4 * j + 2]'(by omega)) (X[4 * j + 3]'(by omega))

/-- `Y` is `X` with its word j replaced by the bytes of `v` (R220). -/
def WordReplaced (X Y : Block) (j : Nat) (v : Word) : Prop :=
  ∀ k : Fin 16, Y[k].toNat = if k.val / 4 = j then laneOf v (k.val % 4) else X[k].toNat

/-- The reserved offsets of the map R102. -/
abbrev ReservedOffset (bufSize off : Nat) : Prop :=
  (0x05C ≤ off ∧ off ≤ 0x0FC) ∨ (0x1B0 ≤ off ∧ off ≤ 0xFFC) ∨ (0x1000 + bufSize ≤ off ∧ off ≤ 0xFFFC)

/-- ERRCODE as a number (R810). -/
def errorNumber : Option CmdError → Nat
  | none => 0
  | some .sizeMismatch => 1
  | some .padding => 2
  | some .malformedCiphertext => 3
  | some .illegalCommand => 4
  | some .range => 5
  | some .overlap => 6

/-- The carry-less product of two bytes: the product of their polynomials over GF(2), degree at most 14 (R403). -/
def polyProduct (a b : Byte) : Nat :=
  (List.range 8).foldl (fun acc i => if b.getLsbD i then acc ^^^ (a.toNat <<< i) else acc) 0

/-- The remainder of a polynomial of degree at most 14 modulo x^8+x^4+x^3+x+1 (0x11B) (R403). -/
def polyRemainder (p : Nat) : Nat :=
  [14, 13, 12, 11, 10, 9, 8].foldl (fun p i => if p.testBit i then p ^^^ (0x11B <<< (i - 8)) else p) p

/-- The affine map of R406. -/
def affineMap (b : Byte) : Byte :=
  b ^^^ b.rotateLeft 1 ^^^ b.rotateLeft 2 ^^^ b.rotateLeft 3 ^^^ b.rotateLeft 4 ^^^ 0x63

/-- The key, plaintext and ciphertext of the source's known-answer vector (R554), and the IV of 95_test_vectors.md V50. -/
def sampleKey : Block := #v[0x00, 0x01, 0x02, 0x03, 0x04, 0x05, 0x06, 0x07, 0x08, 0x09, 0x0A, 0x0B, 0x0C, 0x0D, 0x0E, 0x0F]
def samplePlain : Block := #v[0x00, 0x11, 0x22, 0x33, 0x44, 0x55, 0x66, 0x77, 0x88, 0x99, 0xAA, 0xBB, 0xCC, 0xDD, 0xEE, 0xFF]
def sampleCipher : Block := #v[0x69, 0xC4, 0xE0, 0xD8, 0x6A, 0x7B, 0x04, 0x30, 0xD8, 0xCD, 0xB7, 0x80, 0x70, 0xB4, 0xC5, 0x5A]
def sampleIv : Block := #v[0x0F, 0x0E, 0x0D, 0x0C, 0x0B, 0x0A, 0x09, 0x08, 0x07, 0x06, 0x05, 0x04, 0x03, 0x02, 0x01, 0x00]

/-- "Hello" (R660). -/
def sampleText : List Byte := [0x48, 0x65, 0x6C, 0x6C, 0x6F]

/-- CBC of "Hello" under the sample key and IV (R660). -/
def sampleChain : List Byte :=
  [0xC6, 0x31, 0xA7, 0x3C, 0xB4, 0xFB, 0x3C, 0xED, 0xCF, 0x86, 0xBA, 0x4E, 0x01, 0xA9, 0xD8, 0x4F]

end Sys2Proof.Machine

open Sys2Proof Sys2Proof.Machine

/-! ## Encoding -/

/-- The opcode map (R303): each command word decodes to the command of its row, for every k of RND 0..10. -/
def Obligations.OpcodeMapDecodes : Prop :=
  decode 0x00000000 = .ok .nop ∧ decode 0x00000001 = .ok .keyld ∧ decode 0x00000002 = .ok .keyexp ∧
  decode 0x00000003 = .ok .encblk ∧ decode 0x00000004 = .ok .decblk ∧ decode 0x00000008 = .ok .gfmul ∧
  decode 0x00000009 = .ok .gfdbl ∧ decode 0x0000000A = .ok .sbox ∧ decode 0x0000000B = .ok .invsbox ∧
  decode 0x00000010 = .ok .subbytes ∧ decode 0x00000011 = .ok .invsubbytes ∧ decode 0x00000012 = .ok .shiftrows ∧
  decode 0x00000013 = .ok .invshiftrows ∧ decode 0x00000014 = .ok .mixcolumns ∧
  decode 0x00000015 = .ok .invmixcolumns ∧ decode 0x00000020 = .ok .pad ∧ decode 0x00000021 = .ok .unpad ∧
  decode 0x00000030 = .ok .cbcenc ∧ decode 0x00000031 = .ok .cbcdec ∧
  (∀ k : Fin 11, decode (BitVec.ofNat 32 (0x100 * k.val + 0x16)) = .ok (.addroundkey (BitVec.ofNat 4 k.val)) ∧
    decode (BitVec.ofNat 32 (0x100 * k.val + 0x18)) = .ok (.encround (BitVec.ofNat 4 k.val)) ∧
    decode (BitVec.ofNat 32 (0x100 * k.val + 0x19)) = .ok (.decround (BitVec.ofNat 4 k.val))) ∧
  decode 0x00000518 = .ok (.encround 5) ∧ decode 0x00000A16 = .ok (.addroundkey 10)

/-- Every well-formed command is what its own word decodes to. -/
def Obligations.DecodeOfEncodeIsTheCommand : Prop := ∀ i : Instr, i.wellFormed = true → decode (encode i) = .ok i

/-- A word that decodes is the word of the well-formed command it decodes to: no two words mean the same. -/
def Obligations.DecodedWordIsItsEncoding : Prop :=
  ∀ (v : Word) (i : Instr), decode v = .ok i → encode i = v ∧ i.wellFormed = true

/-- The illegal encodings are exactly those R305 lists; each of them, on any state, completes with IllegalCommand and
changes only STATUS; and no other word completes with IllegalCommand (R811). -/
def Obligations.IllegalWordsRaiseIllegalCommand : Prop :=
  ∀ v : Word, (IllegalWord v ↔ ∃ e, decode v = .error e) ∧
    (IllegalWord v → ∀ s : State, executeWord v s = .next (onlyStatus s (some .illegalCommand))) ∧
    (∀ s : State, ∃ t, executeWord v s = .next t ∧ (t.errcode = some .illegalCommand ↔ IllegalWord v))

/-! ## The step -/

/-- On the core's turn a step is `exec` of the command the word in flight decodes to, and a word placed by
`withFetchWord` is what the next step runs. -/
def Obligations.StepRunsTheDecodedCommand : Prop :=
  ∀ (s : State) (v : Word) (i : Instr), decode v = .ok i →
    (s.latch = some v → s.events = [] → step s = exec i s) ∧
    (s.latch = some v → ∀ es, s.events = .core :: es → step s = exec i { s with events := es }) ∧
    step (s.withFetchWord 32 v.toNat) =
      exec i { s with cmd := v, latch := some v, done := false, errcode := none }

/-- No run of the machine stops at a fault or a refusal: errors are completion statuses (R800). -/
def Obligations.EveryRunIsSafe : Prop := ∀ (k : Nat) (s : State), SafeRun k s

/-- Every accepted command completes on the core's next turn, whatever the word and the state (R702, R705). -/
def Obligations.AcceptedCommandCompletes : Prop :=
  ∀ (s : State) (v : Word), s.latch = some v → (s.events = [] ∨ ∃ es, s.events = .core :: es) →
    ∃ t, step s = .next t ∧ t.latch = none ∧ t.done = true

/-- The invariant of `Safety.lean` is kept by every step: a host request, the core's turn, a reset. -/
def Obligations.InvariantIsKept : Prop := ∀ s t : State, s.Inv → step s = .next t → t.Inv

/-- The invariant holds right after reset. -/
def Obligations.ResetMeetsTheInvariant : Prop := State.reset.Inv

/-- KV = 1 implies RK = KeyExpansion(KEY), kept by every step from any state that has it; and KV changes only where R118
says: set by KEYEXP or auto-expansion, cleared by reset, a KEY write or KEYLD. -/
def Obligations.KeyValidTellsTheTruth : Prop :=
  (∀ s t : State, s.KeysCurrent → step s = .next t → t.KeysCurrent) ∧
  (∀ s t : State, step s = .next t → t.kv ≠ s.kv →
    (∃ es, s.events = .reset :: es ∧ t.kv = false) ∨
    (∃ off v es, s.events = .bus (.write off v) :: es ∧ s.latch = none ∧ 0x020 ≤ off.toNat ∧ off.toNat ≤ 0x02C ∧
      t.kv = false) ∨
    (∃ v i, s.latch = some v ∧ decode v = .ok i ∧
      ((i = .keyld ∧ t.kv = false) ∨
       (t.kv = true ∧ (i = .keyexp ∨ i = .encblk ∨ i = .decblk ∨ i = .cbcenc ∨ i = .cbcdec ∨
         ∃ k, i = .addroundkey k ∨ i = .encround k ∨ i = .decround k)))))

/-- A command is issued only by a host write to CMD while no command is in flight (R113, R243). -/
def Obligations.OnlyACmdWriteIssuesACommand : Prop :=
  ∀ (s t : State) (v : Word), step s = .next t → s.latch ≠ some v → t.latch = some v →
    s.latch = none ∧ ∃ es, s.events = .bus (.write 0x0000 v) :: es

/-- Idle, the hardware changes only on a host write or a reset (R922), and a read changes it never (R213). -/
def Obligations.IdleHardwareKeepsItsState : Prop :=
  (∀ s t : State, s.latch = none → (∀ off v es, s.events ≠ .bus (.write off v) :: es) →
    (∀ es, s.events ≠ .reset :: es) → step s = .next t → s.SameHardware t) ∧
  (∀ (s t : State) off es, s.events = .bus (.read off) :: es → step s = .next t → s.SameHardware t)

/-! ## The bus -/

/-- A misaligned request answers ERR and changes no state, not even HZ (R211, R813); an aligned one is never answered with
ERR (R212). -/
def Obligations.BusAnswersByAlignment : Prop :=
  ∀ (s : State) (off : Offset) (v : Word) (es : List Event),
    (off.toNat % 4 ≠ 0 →
      step { s with events := .bus (.read off) :: es } = .next { s with events := es, response := some .err } ∧
      step { s with events := .bus (.write off v) :: es } = .next { s with events := es, response := some .err }) ∧
    (off.toNat % 4 = 0 →
      (∃ t w, step { s with events := .bus (.read off) :: es } = .next t ∧ t.response = some (.data w)) ∧
      (∃ t, step { s with events := .bus (.write off v) :: es } = .next t ∧ t.response = some .ok))

/-- Reserved offsets read 0 and ignore writes, whether or not a command is running, except that a write while BUSY = 1
sets HZ (R120). -/
def Obligations.ReservedOffsetsReadZero : Prop :=
  ∀ (s : State) (off : Nat) (v : Word) (es : List Event), off % 4 = 0 → ReservedOffset s.config.bufSize off →
    (∃ t, step { s with events := .bus (.read (BitVec.ofNat 16 off)) :: es } = .next t ∧
      t.response = some (.data 0) ∧ t.SameHardware s) ∧
    (s.latch = none → WritesTo s off v s) ∧
    (s.latch ≠ none → WritesTo s off v { s with hz := true })

/-- The byte lanes of the 16-byte registers and of the buffer, as read and as written by the host while Idle; word j of a
block is its column j, row 0 in bits 7:0 (R220). -/
def Obligations.ByteLanesOfTheBus : Prop :=
  (∀ (X : Block) (r j : Nat) (_ : r < 4) (_ : j < 4),
    cell X r j = X[4 * j + r] ∧ laneOf (blockWord X j) r = (cell X r j).toNat) ∧
  ∀ s : State, s.latch = none →
    (∀ (j : Nat) (h : j < 4),
      ReadsAs s (0x020 + 4 * j) (wordValue s.key j h) ∧ ReadsAs s (0x030 + 4 * j) (wordValue s.iv j h) ∧
      ReadsAs s (0x040 + 4 * j) (wordValue s.state j h) ∧
      (∀ k : Fin 11, ReadsAs s (0x100 + 16 * k.val + 4 * j) (wordValue s.rk[k] j h)) ∧
      (∀ v : Word,
        (∃ Y, WordReplaced s.key Y j v ∧ WritesTo s (0x020 + 4 * j) v { s with key := Y, kv := false }) ∧
        (∃ Y, WordReplaced s.iv Y j v ∧ WritesTo s (0x030 + 4 * j) v { s with iv := Y }) ∧
        (∃ Y, WordReplaced s.state Y j v ∧ WritesTo s (0x040 + 4 * j) v { s with state := Y }))) ∧
    (s.config.legal = true → ∀ a : Nat, a % 4 = 0 → a + 4 ≤ s.config.bufSize →
      ReadsAs s (0x1000 + a) (laneValue (s.bufByte a) (s.bufByte (a + 1)) (s.bufByte (a + 2)) (s.bufByte (a + 3))) ∧
      ∀ v : Word, ∃ m, WritesTo s (0x1000 + a) v { s with buf := m } ∧
        ∀ x : Nat, (State.bufByte { s with buf := m } x).toNat =
          if a ≤ x ∧ x < a + 4 then laneOf v (x - a) else (s.bufByte x).toNat)

/-- SRC, DST, LEN, OPA, OPB and CONFIG as the host reads and writes them while Idle; no command writes them; all are 0
after reset (R106, R110, R116). -/
def Obligations.OperandRegisters : Prop :=
  (∀ s : State, s.latch = none → ∀ v : Word,
    ReadsAs s 0x010 s.src.toNat ∧ WritesTo s 0x010 v { s with src := v } ∧
    ReadsAs s 0x014 s.dst.toNat ∧ WritesTo s 0x014 v { s with dst := v } ∧
    ReadsAs s 0x018 s.len.toNat ∧ WritesTo s 0x018 v { s with len := v } ∧
    ReadsAs s 0x050 s.opa.toNat ∧ WritesTo s 0x050 v { s with opa := BitVec.ofNat 8 (v.toNat % 256) } ∧
    ReadsAs s 0x054 s.opb.toNat ∧ WritesTo s 0x054 v { s with opb := BitVec.ofNat 8 (v.toNat % 256) } ∧
    ReadsAs s 0x008 s.ie.toNat ∧ WritesTo s 0x008 v { s with ie := decide (v.toNat % 2 = 1) }) ∧
  (∀ (i : Instr) (s t : State), exec i s = .next t →
    t.src = s.src ∧ t.dst = s.dst ∧ t.len = s.len ∧ t.opa = s.opa ∧ t.opb = s.opb ∧ t.ie = s.ie ∧ t.iv = s.iv) ∧
  State.reset.src = 0 ∧ State.reset.dst = 0 ∧ State.reset.len = 0 ∧ State.reset.opa = 0 ∧ State.reset.opb = 0 ∧
  State.reset.ie = false

/-- RES, ID, OUTLEN and RK are read-only for the host; RES is written by GFMUL, GFDBL, SBOX and INVSBOX and by no other
command; ID is a constant, its fields "AE", 1 and 7; RES is 0 after reset (R107, R112). -/
def Obligations.ReadOnlyRegisters : Prop :=
  (∀ s : State, s.latch = none → ∀ v : Word,
    ReadsAs s 0x058 s.res.toNat ∧ WritesTo s 0x058 v s ∧
    ReadsAs s 0x00C 0x41450107 ∧ WritesTo s 0x00C v s ∧
    ReadsAs s 0x01C s.outlen.toNat ∧ WritesTo s 0x01C v s ∧
    ∀ (k : Fin 11) (j : Nat), j < 4 → WritesTo s (0x100 + 16 * k.val + 4 * j) v s) ∧
  (∀ (i : Instr) (s t : State), exec i s = .next t →
    (i = .gfmul → t.res = gfMul s.opa s.opb) ∧ (i = .gfdbl → t.res = gfDouble s.opa) ∧
    (i = .sbox → t.res = sbox s.opa) ∧ (i = .invsbox → t.res = invSbox s.opa) ∧
    (i ≠ .gfmul → i ≠ .gfdbl → i ≠ .sbox → i ≠ .invsbox → t.res = s.res)) ∧
  (0x41450107 / 2 ^ 16 = 0x4145 ∧ 0x41450107 / 2 ^ 8 % 256 = 0x01 ∧ 0x41450107 % 256 = 0x07) ∧
  State.reset.res = 0

/-- Every aligned write made while a command runs is dropped and sets HZ; HZ stays 1 until the host writes 1 to it while
Idle, or reset; a misaligned write does not set it (R911). -/
def Obligations.WritesWhileBusyAreDropped : Prop :=
  (∀ (s : State) (off : Offset) (v : Word) (es : List Event), s.latch ≠ none → off.toNat % 4 = 0 →
    step { s with events := .bus (.write off v) :: es } =
      .next { s with events := es, response := some .ok, hz := true }) ∧
  (∀ s t : State, step s = .next t → s.hz = true → t.hz = false →
    (∃ es, s.events = .reset :: es) ∨
    (s.latch = none ∧ ∃ v es, s.events = .bus (.write 0x0004 v) :: es ∧ v.getLsbD 4 = true)) ∧
  (∀ (s : State) (off : Offset) (v : Word) (es : List Event), off.toNat % 4 ≠ 0 →
    ∃ t, step { s with events := .bus (.write off v) :: es } = .next t ∧ t.hz = s.hz ∧ t.response = some .err)

/-- Reads while a command runs (R912): STATUS shows BUSY 1, DONE, ERR and ERRCODE 0, HZ its value and some KV; CMD,
CONFIG, ID, SRC, DST, LEN, IV, OPA and OPB their values; a reserved offset 0; every other register and BUF some word, a
free value (log entry 3). No read has an effect. -/
def Obligations.ReadsWhileBusy : Prop :=
  ∀ (s : State) (off : Offset) (es : List Event), s.latch ≠ none → off.toNat % 4 = 0 →
    ∃ t w, step { s with events := .bus (.read off) :: es } = .next t ∧ t.response = some (.data w) ∧
      t.SameHardware s ∧
      (off.toNat = 0x000 → w = s.cmd) ∧
      (off.toNat = 0x004 → ∃ kv : Bool, w.toNat = 1 + 8 * kv.toNat + 16 * s.hz.toNat) ∧
      (off.toNat = 0x008 → w.toNat = s.ie.toNat) ∧ (off.toNat = 0x00C → w = 0x41450107) ∧
      (off.toNat = 0x010 → w = s.src) ∧ (off.toNat = 0x014 → w = s.dst) ∧ (off.toNat = 0x018 → w = s.len) ∧
      (∀ (j : Nat) (h : j < 4), off.toNat = 0x030 + 4 * j → w.toNat = wordValue s.iv j h) ∧
      (off.toNat = 0x050 → w.toNat = s.opa.toNat) ∧ (off.toNat = 0x054 → w.toNat = s.opb.toNat) ∧
      (ReservedOffset s.config.bufSize off.toNat → w = 0)

/-- A CMD write while Idle is accepted at once, with no other action, and IRQ falls (R701). -/
def Obligations.CmdWriteIsAccepted : Prop :=
  ∀ (s : State) (v : Word), s.latch = none →
    WritesTo s 0x000 v { s with cmd := v, latch := some v, done := false, errcode := none } ∧
    State.irq { s with cmd := v, latch := some v, done := false, errcode := none } = false ∧
    State.busy { s with cmd := v, latch := some v, done := false, errcode := none } = true

/-- A host write to STATUS while Idle clears DONE where bit 1 is 1 and HZ where bit 4 is 1, and has no other effect; while
a command runs it is dropped (R115). -/
def Obligations.StatusWriteClearsDoneAndHz : Prop :=
  ∀ (s : State) (v : Word),
    (s.latch = none → WritesTo s 0x004 v
      { s with done := if v.getLsbD 1 then false else s.done, hz := if v.getLsbD 4 then false else s.hz }) ∧
    (s.latch ≠ none → WritesTo s 0x004 v { s with hz := true })

/-- STATUS as the host reads it while Idle: BUSY 0, DONE 1, ERR 2, KV 3, HZ 4, ERRCODE 11:8, every other bit 0, ERR equal
to (ERRCODE != 0), ERRCODE 0 to 6; and CMD reads as the last accepted word (R113, R114). -/
def Obligations.StatusRegisterFields : Prop :=
  ∀ s : State, s.latch = none →
    ReadsAs s 0x004 (2 * s.done.toNat + 4 * (decide (errorNumber s.errcode ≠ 0)).toNat + 8 * s.kv.toNat +
      16 * s.hz.toNat + 256 * errorNumber s.errcode) ∧
    errorNumber s.errcode ≤ 6 ∧ ReadsAs s 0x000 s.cmd.toNat

/-- The interrupt output (R840): IE and DONE; raised by every completion, successful or not, where IE is set; it falls on
a STATUS write of bit 1, an accepted CMD write, a CONFIG write that clears IE and a reset, and on nothing else; a CONFIG
write masks and unmasks it at once and leaves DONE. -/
def Obligations.InterruptOutput : Prop :=
  (∀ s : State, s.irq = true ↔ s.ie = true ∧ s.done = true) ∧
  (∀ (v : Word) (s t : State), executeWord v s = .next t → t.irq = s.ie) ∧
  (∀ s t : State, step s = .next t → s.done = true → t.done = false →
    (∃ es, s.events = .reset :: es) ∨
    (s.latch = none ∧ ((∃ v es, s.events = .bus (.write 0x0004 v) :: es ∧ v.getLsbD 1 = true) ∨
      ∃ v es, s.events = .bus (.write 0x0000 v) :: es))) ∧
  (∀ s t : State, step s = .next t → s.ie ≠ t.ie →
    (∃ es, s.events = .reset :: es) ∨ (s.latch = none ∧ ∃ v es, s.events = .bus (.write 0x0008 v) :: es)) ∧
  (∀ (s : State) (v : Word), s.latch = none →
    WritesTo s 0x008 v { s with ie := v.getLsbD 0 } ∧
    State.irq { s with ie := v.getLsbD 0 } = (v.getLsbD 0 && s.done)) ∧
  (∀ (s t : State) (v : Word) (es : List Event), step s = .next t →
    (s.latch = none ∧ s.events = .bus (.write 0x0004 v) :: es ∧ v.getLsbD 1 = true) ∨
    (s.latch = none ∧ s.events = .bus (.write 0x0000 v) :: es) ∨ s.events = .reset :: es → t.irq = false) ∧
  State.reset.ie = false ∧ State.reset.irq = false

/-! ## Reset -/

/-- The reset values (R900): every register 0, no command in flight, ID its constant, and BUF unspecified, each byte the
reset's free draw, whose numbering is the model's (log entry 2). Reset at any time (R901) aborts a running command and leaves those values and BUF a new draw; the
machine is then Idle and accepts its first request at once. -/
def Obligations.ResetValues : Prop :=
  (State.reset.cmd = 0 ∧ State.reset.latch = none ∧ State.reset.done = false ∧ State.reset.errcode = none ∧
    State.reset.kv = false ∧ State.reset.hz = false ∧ State.reset.ie = false ∧ State.reset.irq = false ∧
    State.reset.src = 0 ∧ State.reset.dst = 0 ∧ State.reset.len = 0 ∧ State.reset.outlen = 0 ∧
    (∀ k : Fin 16, State.reset.key[k] = 0 ∧ State.reset.iv[k] = 0 ∧ State.reset.state[k] = 0) ∧
    State.reset.opa = 0 ∧ State.reset.opb = 0 ∧ State.reset.res = 0 ∧
    (∀ (k : Fin 11) (b : Fin 16), State.reset.rk[k][b] = 0) ∧
    ReadsAs State.reset 0x00C 0x41450107 ∧
    (∀ a : Nat, State.reset.bufByte a = Config.freeBufByte 0 a)) ∧
  (∀ (s : State) (es : List Event), ∃ t,
    step { s with events := .reset :: es } = .next t ∧
    t.SameHardware { State.reset with config := s.config, bufDraw := t.bufDraw } ∧ t.latch = none ∧
    (∀ a : Nat, t.bufByte a = Config.freeBufByte t.bufDraw a) ∧ t.bufDraw ≠ s.bufDraw ∧ t.events = es ∧
    (∀ v : Word, WritesTo t 0x000 v { t with cmd := v, latch := some v }) ∧ ReadsAs t 0x00C 0x41450107)

/-! ## The commands -/

/-- NOP (R710): completion and nothing else. -/
def Obligations.NopCommand : Prop :=
  PlainWord 0x00 .nop ∧ (∀ s : State, exec .nop s = .next (onlyStatus s none)) ∧
  ∃ t, step (State.reset.withFetchWord 32 0x00000000) = .next t ∧ t.status = 0x00000002

/-- GFMUL, GFDBL, SBOX and INVSBOX (R420 to R423): one result byte in RES and nothing else; corner cases and examples. -/
def Obligations.ByteCommands : Prop :=
  PlainWord 0x08 .gfmul ∧ PlainWord 0x09 .gfdbl ∧ PlainWord 0x0A .sbox ∧ PlainWord 0x0B .invsbox ∧
  (∀ s : State,
    exec .gfmul s = .next (onlyStatus { s with res := gfMul s.opa s.opb } none) ∧
    exec .gfdbl s = .next (onlyStatus { s with res := gfDouble s.opa } none) ∧
    exec .sbox s = .next (onlyStatus { s with res := sbox s.opa } none) ∧
    exec .invsbox s = .next (onlyStatus { s with res := invSbox s.opa } none)) ∧
  (∀ a b : Byte, gfMul a 0x00 = 0x00 ∧ gfMul 0x00 a = 0x00 ∧ gfMul a 0x01 = a ∧ gfMul a b = gfMul b a) ∧
  gfMul 0x80 0x02 = 0x1B ∧ gfMul 0x57 0x83 = 0xC1 ∧
  gfDouble 0x00 = 0x00 ∧ gfDouble 0x80 = 0x1B ∧ gfDouble 0xFF = 0xE5 ∧ gfDouble 0x8D = 0x01 ∧ gfDouble 0x57 = 0xAE ∧
  sbox 0x00 = 0x63 ∧ sbox 0xFF = 0x16 ∧ sbox 0x53 = 0xED ∧ invSbox 0x00 = 0x52 ∧ invSbox 0x63 = 0x00 ∧
  invSbox 0xED = 0x53 ∧ (∀ x : Byte, sbox x ≠ x ∧ invSbox (sbox x) = x)

/-- SUBBYTES and INVSUBBYTES (R470, R471): every byte through its table. -/
def Obligations.SubBytesCommands : Prop :=
  PlainWord 0x10 .subbytes ∧ PlainWord 0x11 .invsubbytes ∧
  (∀ s : State, ∃ B, exec .subbytes s = .next (onlyStatus { s with state := B } none) ∧
    (∀ k : Fin 16, B[k] = sbox s.state[k] ∧ B[k] ≠ s.state[k]) ∧
    ∃ C, exec .invsubbytes { s with state := B } = .next (onlyStatus { s with state := C } none) ∧ C = s.state) ∧
  (∀ s : State, ∃ B, exec .invsubbytes s = .next (onlyStatus { s with state := B } none) ∧
    ∀ k : Fin 16, B[k] = invSbox s.state[k]) ∧
  subBytes samplePlain =
    #v[0x63, 0x82, 0x93, 0xC3, 0x1B, 0xFC, 0x33, 0xF5, 0xC4, 0xEE, 0xAC, 0xEA, 0x4B, 0xC1, 0x28, 0x16] ∧
  invSubBytes samplePlain =
    #v[0x52, 0xE3, 0x94, 0x66, 0x86, 0xED, 0xD3, 0x02, 0x97, 0xF9, 0x62, 0xFE, 0x27, 0xC9, 0x99, 0x7D] ∧
  subBytes (Vector.replicate 16 0x00) = Vector.replicate 16 0x63 ∧
  invSubBytes (Vector.replicate 16 0x63) = Vector.replicate 16 0x00

/-- SHIFTROWS and INVSHIFTROWS (R472, R473), by the byte lists of R455 and R456. -/
def Obligations.ShiftRowsCommands : Prop :=
  PlainWord 0x12 .shiftrows ∧ PlainWord 0x13 .invshiftrows ∧
  (∀ s : State, exec .shiftrows s = .next (onlyStatus { s with state :=
    #v[s.state[0], s.state[5], s.state[10], s.state[15], s.state[4], s.state[9], s.state[14], s.state[3],
       s.state[8], s.state[13], s.state[2], s.state[7], s.state[12], s.state[1], s.state[6], s.state[11]] } none)) ∧
  (∀ s : State, exec .invshiftrows s = .next (onlyStatus { s with state :=
    #v[s.state[0], s.state[13], s.state[10], s.state[7], s.state[4], s.state[1], s.state[14], s.state[11],
       s.state[8], s.state[5], s.state[2], s.state[15], s.state[12], s.state[9], s.state[6], s.state[3]] } none)) ∧
  (∀ (B : Block) (r c : Nat), r < 4 → c < 4 →
    cell (shiftRows B) r c = cell B r ((c + r) % 4) ∧ cell (invShiftRows B) r ((c + r) % 4) = cell B r c) ∧
  (∀ B : Block, invShiftRows (shiftRows B) = B ∧ shiftRows (shiftRows (shiftRows (shiftRows B))) = B ∧
    ((∀ r c : Nat, cell B r c = cell B r 0) → shiftRows B = B)) ∧
  shiftRows sampleKey =
    #v[0x00, 0x05, 0x0A, 0x0F, 0x04, 0x09, 0x0E, 0x03, 0x08, 0x0D, 0x02, 0x07, 0x0C, 0x01, 0x06, 0x0B] ∧
  invShiftRows sampleKey =
    #v[0x00, 0x0D, 0x0A, 0x07, 0x04, 0x01, 0x0E, 0x0B, 0x08, 0x05, 0x02, 0x0F, 0x0C, 0x09, 0x06, 0x03]

/-- MIXCOLUMNS and INVMIXCOLUMNS (R474, R475), by the matrices of R457 and R458 written out, and their examples. -/
def Obligations.MixColumnsCommands : Prop :=
  PlainWord 0x14 .mixcolumns ∧ PlainWord 0x15 .invmixcolumns ∧
  (∀ s : State, ∃ B, exec .mixcolumns s = .next (onlyStatus { s with state := B } none) ∧
    ∀ (j : Nat) (h : j < 4), let a := s.state
      B[4 * j] = gfMul 2 a[4 * j] ^^^ gfMul 3 a[4 * j + 1] ^^^ a[4 * j + 2] ^^^ a[4 * j + 3] ∧
      B[4 * j + 1] = a[4 * j] ^^^ gfMul 2 a[4 * j + 1] ^^^ gfMul 3 a[4 * j + 2] ^^^ a[4 * j + 3] ∧
      B[4 * j + 2] = a[4 * j] ^^^ a[4 * j + 1] ^^^ gfMul 2 a[4 * j + 2] ^^^ gfMul 3 a[4 * j + 3] ∧
      B[4 * j + 3] = gfMul 3 a[4 * j] ^^^ a[4 * j + 1] ^^^ a[4 * j + 2] ^^^ gfMul 2 a[4 * j + 3]) ∧
  (∀ s : State, ∃ B, exec .invmixcolumns s = .next (onlyStatus { s with state := B } none) ∧
    ∀ (j : Nat) (h : j < 4), let a := s.state
      B[4 * j] = gfMul 0x0E a[4 * j] ^^^ gfMul 0x0B a[4 * j + 1] ^^^ gfMul 0x0D a[4 * j + 2] ^^^ gfMul 0x09 a[4 * j + 3] ∧
      B[4 * j + 1] = gfMul 0x09 a[4 * j] ^^^ gfMul 0x0E a[4 * j + 1] ^^^ gfMul 0x0B a[4 * j + 2] ^^^ gfMul 0x0D a[4 * j + 3] ∧
      B[4 * j + 2] = gfMul 0x0D a[4 * j] ^^^ gfMul 0x09 a[4 * j + 1] ^^^ gfMul 0x0E a[4 * j + 2] ^^^ gfMul 0x0B a[4 * j + 3] ∧
      B[4 * j + 3] = gfMul 0x0B a[4 * j] ^^^ gfMul 0x0D a[4 * j + 1] ^^^ gfMul 0x09 a[4 * j + 2] ^^^ gfMul 0x0E a[4 * j + 3]) ∧
  mixColumns sampleKey =
    #v[0x02, 0x07, 0x00, 0x05, 0x06, 0x03, 0x04, 0x01, 0x0A, 0x0F, 0x08, 0x0D, 0x0E, 0x0B, 0x0C, 0x09] ∧
  invMixColumns
    #v[0x02, 0x07, 0x00, 0x05, 0x06, 0x03, 0x04, 0x01, 0x0A, 0x0F, 0x08, 0x0D, 0x0E, 0x0B, 0x0C, 0x09] = sampleKey

/-- ADDROUNDKEY k (R476): the result uses the expansion of the current KEY, expanded first where KV was 0; twice restores
STATE; the example. -/
def Obligations.AddRoundKeyCommand : Prop :=
  RoundWord 0x16 .addroundkey ∧
  (∀ (s : State) (k : Fin 11), s.KeysCurrent → ∃ B,
    exec (.addroundkey (BitVec.ofNat 4 k.val)) s =
      .next (onlyStatus { s with state := B, rk := keyExpansion s.key, kv := true } none) ∧
    ∀ b : Fin 16, B[b] = s.state[b] ^^^ (keyExpansion s.key)[k][b]) ∧
  (∀ (s : State) (k : Fin 11), s.KeysCurrent → ∃ t u,
    exec (.addroundkey (BitVec.ofNat 4 k.val)) s = .next t ∧ exec (.addroundkey (BitVec.ofNat 4 k.val)) t = .next u ∧
    u.state = s.state) ∧
  addRoundKey samplePlain (keyExpansion sampleKey)[0] =
    #v[0x00, 0x10, 0x20, 0x30, 0x40, 0x50, 0x60, 0x70, 0x80, 0x90, 0xA0, 0xB0, 0xC0, 0xD0, 0xE0, 0xF0]

/-- ENCROUND k and DECROUND k (R477, R478) with the compositions of R461 and R462; DECROUND k undoes ENCROUND k; the
examples. -/
def Obligations.RoundCommands : Prop :=
  RoundWord 0x18 .encround ∧ RoundWord 0x19 .decround ∧
  (∀ (s : State) (k : Fin 11), s.KeysCurrent →
    let K := (keyExpansion s.key)[k]
    let done := fun B : Block => Host.Outcome.next (onlyStatus { s with state := B, rk := keyExpansion s.key, kv := true } none)
    exec (.encround (BitVec.ofNat 4 k.val)) s = done (
      if k.val = 0 then addRoundKey s.state K
      else if k.val ≤ 9 then addRoundKey (mixColumns (shiftRows (subBytes s.state))) K
      else addRoundKey (shiftRows (subBytes s.state)) K) ∧
    exec (.decround (BitVec.ofNat 4 k.val)) s = done (
      if k.val = 10 then invSubBytes (invShiftRows (addRoundKey s.state K))
      else if 1 ≤ k.val then invSubBytes (invShiftRows (invMixColumns (addRoundKey s.state K)))
      else addRoundKey s.state K)) ∧
  (∀ (s : State) (k : Fin 11), s.KeysCurrent → ∃ t u,
    exec (.encround (BitVec.ofNat 4 k.val)) s = .next t ∧ exec (.decround (BitVec.ofNat 4 k.val)) t = .next u ∧
    u.state = s.state) ∧
  encRound #v[0x00, 0x10, 0x20, 0x30, 0x40, 0x50, 0x60, 0x70, 0x80, 0x90, 0xA0, 0xB0, 0xC0, 0xD0, 0xE0, 0xF0]
      (keyExpansion sampleKey) 1 =
    #v[0x89, 0xD8, 0x10, 0xE8, 0x85, 0x5A, 0xCE, 0x68, 0x2D, 0x18, 0x43, 0xD8, 0xCB, 0x12, 0x8F, 0xE4] ∧
  decRound sampleCipher (keyExpansion sampleKey) 10 =
    #v[0xBD, 0x6E, 0x7C, 0x3D, 0xF2, 0xB5, 0x77, 0x9E, 0x0B, 0x61, 0x21, 0x6E, 0x8B, 0x10, 0xB6, 0x89]

/-- KEYEXP (R520): all 11 round keys, KV, and nothing else; the same RK where KV was 1; RK[0] is KEY; the examples. -/
def Obligations.KeyexpCommand : Prop :=
  PlainWord 0x02 .keyexp ∧
  (∀ s : State, exec .keyexp s = .next (onlyStatus { s with rk := keyExpansion s.key, kv := true } none)) ∧
  (∀ s : State, s.KeysCurrent → s.kv = true → exec .keyexp s = .next (onlyStatus s none)) ∧
  (∀ K : Block, (keyExpansion K)[0] = K) ∧
  (keyExpansion (Vector.replicate 16 0x00))[1] =
    #v[0x62, 0x63, 0x63, 0x63, 0x62, 0x63, 0x63, 0x63, 0x62, 0x63, 0x63, 0x63, 0x62, 0x63, 0x63, 0x63] ∧
  (keyExpansion sampleKey)[1] =
    #v[0xD6, 0xAA, 0x74, 0xFD, 0xD2, 0xAF, 0x72, 0xFA, 0xDA, 0xA6, 0x78, 0xF1, 0xD6, 0xAB, 0x76, 0xFE] ∧
  (keyExpansion sampleKey)[10] =
    #v[0x13, 0x11, 0x1D, 0x7F, 0xE3, 0x94, 0x4A, 0x17, 0xF3, 0x07, 0xA7, 0x8B, 0x4D, 0x2B, 0x30, 0xC5]

/-- KEYLD (R521): KEY from the buffer and KV 0; its errors change only STATUS. -/
def Obligations.KeyldCommand : Prop :=
  PlainWord 0x01 .keyld ∧
  (∀ s : State, s.len.toNat = 16 → s.src.toNat + 16 ≤ s.config.bufSize →
    ∃ K, exec .keyld s = .next (onlyStatus { s with key := K, kv := false } none) ∧
      ∀ b : Fin 16, K[b] = s.bufByte (s.src.toNat + b.val)) ∧
  (∀ s : State, s.len.toNat ≠ 16 → exec .keyld s = .next (onlyStatus s (some .sizeMismatch))) ∧
  (∀ s : State, s.len.toNat = 16 → s.config.bufSize < s.src.toNat + 16 →
    exec .keyld s = .next (onlyStatus s (some .range)))

/-- ENCBLK and DECBLK (R560, R561): the block, STATE, OUTLEN, RK and KV, every other byte of BUF and every other register
as before; their errors leave the data alone and OUTLEN 0. -/
def Obligations.BlockCommands : Prop :=
  PlainWord 0x03 .encblk ∧ PlainWord 0x04 .decblk ∧
  (∀ (i : Instr) (f : Block → RoundKeys → Block), (i = .encblk ∧ f = cipher) ∨ (i = .decblk ∧ f = invCipher) →
    (∀ s : State, s.KeysCurrent → expectedError s i = none →
      ∃ R m, R = f (blockAt (s.memRead s.src.toNat 16) 0) (keyExpansion s.key) ∧
        exec i s = .next (onlyStatus
          { s with state := R, buf := m, outlen := 16, rk := keyExpansion s.key, kv := true } none) ∧
        (∀ b : Fin 16, State.bufByte { s with buf := m } (s.dst.toNat + b.val) = R[b]) ∧
        (∀ a : Nat, a < s.dst.toNat ∨ s.dst.toNat + 16 ≤ a → State.bufByte { s with buf := m } a = s.bufByte a)) ∧
    (∀ (s : State) (e : CmdError), expectedError s i = some e → exec i s = .next (statusAndOutlen s e))) ∧
  (∀ (B : Block) (rk : RoundKeys), invCipher (cipher B rk) rk = B) ∧
  cipher samplePlain (keyExpansion sampleKey) = sampleCipher ∧
  invCipher sampleCipher (keyExpansion sampleKey) = samplePlain

/-- PAD (R610): n bytes of value n after the data, OUTLEN = LEN + n, every other byte of BUF and every other register as
before; Range leaves BUF alone and OUTLEN 0. -/
def Obligations.PadCommand : Prop :=
  PlainWord 0x20 .pad ∧
  (∀ s : State, s.config.legal = true →
    s.src.toNat + (s.len.toNat + (16 - s.len.toNat % 16)) ≤ s.config.bufSize →
    ∃ m o, exec .pad s = .next (onlyStatus { s with buf := m, outlen := o } none) ∧
      o.toNat = s.len.toNat + (16 - s.len.toNat % 16) ∧
      ∀ a : Nat, (State.bufByte { s with buf := m } a).toNat =
        if s.src.toNat + s.len.toNat ≤ a ∧ a < s.src.toNat + s.len.toNat + (16 - s.len.toNat % 16)
        then 16 - s.len.toNat % 16 else (s.bufByte a).toNat) ∧
  (∀ s : State, s.config.bufSize < s.src.toNat + (s.len.toNat + (16 - s.len.toNat % 16)) →
    exec .pad s = .next (statusAndOutlen s .range))

/-- UNPAD (R611): OUTLEN is LEN less the last byte, where that is a valid pad count; BUF is not modified; the errors. -/
def Obligations.UnpadCommand : Prop :=
  PlainWord 0x21 .unpad ∧
  (∀ s : State, s.config.legal = true → expectedError s .unpad = none →
    ∃ o, exec .unpad s = .next (onlyStatus { s with outlen := o } none) ∧
      o.toNat = s.len.toNat - (s.bufByte (s.src.toNat + s.len.toNat - 1)).toNat) ∧
  (∀ (s : State) (e : CmdError), expectedError s .unpad = some e → exec .unpad s = .next (statusAndOutlen s e))

/-- CBCENC (R660): the ciphertext at DST, its last block in STATE, OUTLEN its length, RK and KV, every other byte of BUF
and every other register as before; the errors; the example. -/
def Obligations.CbcencCommand : Prop :=
  PlainWord 0x30 .cbcenc ∧
  (∀ s : State, s.KeysCurrent → s.config.legal = true → expectedError s .cbcenc = none →
    let OL := 16 * (s.len.toNat / 16 + 1)
    let C := cbcEncrypt (s.memRead s.src.toNat s.len.toNat) (keyExpansion s.key) s.iv
    ∃ m o, exec .cbcenc s = .next (onlyStatus
        { s with state := blockAt C (OL - 16), buf := m, outlen := o, rk := keyExpansion s.key, kv := true } none) ∧
      o.toNat = OL ∧ C.length = OL ∧
      (∀ k : Nat, k < OL → State.bufByte { s with buf := m } (s.dst.toNat + k) = C.getD k 0) ∧
      (∀ a : Nat, a < s.dst.toNat ∨ s.dst.toNat + OL ≤ a → State.bufByte { s with buf := m } a = s.bufByte a)) ∧
  (∀ (s : State) (e : CmdError), expectedError s .cbcenc = some e → exec .cbcenc s = .next (statusAndOutlen s e)) ∧
  cbcEncrypt sampleText (keyExpansion sampleKey) sampleIv = sampleChain

/-- CBCDEC (R661): the padded plaintext at DST, its last block in STATE, OUTLEN the unpadded length, RK and KV; the errors,
of which Padding keeps the decryption; the example. -/
def Obligations.CbcdecCommand : Prop :=
  PlainWord 0x31 .cbcdec ∧
  (∀ s : State, s.KeysCurrent → s.config.legal = true →
    (expectedError s .cbcdec = none ∨ expectedError s .cbcdec = some .padding) →
    let Q := cbcDecryptRaw (s.memRead s.src.toNat s.len.toNat) (keyExpansion s.key) s.iv
    ∃ m o, exec .cbcdec s = .next (onlyStatus
        { s with state := blockAt Q (s.len.toNat - 16), buf := m, outlen := o, rk := keyExpansion s.key, kv := true }
        (expectedError s .cbcdec)) ∧
      Q.length = s.len.toNat ∧
      (expectedError s .cbcdec = none → o.toNat = s.len.toNat - (Q.getD (s.len.toNat - 1) 0).toNat) ∧
      (expectedError s .cbcdec = some .padding → o.toNat = 0) ∧
      (∀ k : Nat, k < s.len.toNat → State.bufByte { s with buf := m } (s.dst.toNat + k) = Q.getD k 0) ∧
      (∀ a : Nat, a < s.dst.toNat ∨ s.dst.toNat + s.len.toNat ≤ a →
        State.bufByte { s with buf := m } a = s.bufByte a)) ∧
  (∀ (s : State) (e : CmdError), expectedError s .cbcdec = some e → e ≠ .padding →
    exec .cbcdec s = .next (statusAndOutlen s e)) ∧
  cbcDecryptRaw sampleChain (keyExpansion sampleKey) sampleIv = sampleText ++ List.replicate 11 0x0B

/-- The check order (R820): every well-formed command completes with the error of the first check of its row that fails,
after IllegalCommand, which comes before anything else; every check but Padding is made before anything changes. -/
def Obligations.CheckOrder : Prop :=
  (∀ (v : Word) (s : State), IllegalWord v → ∃ t, executeWord v s = .next t ∧ t.errcode = some .illegalCommand) ∧
  (∀ (i : Instr) (s : State), i.wellFormed = true → ∃ t, exec i s = .next t ∧ t.errcode = expectedError s i ∧
    ∀ e, t.errcode = some e → e ≠ .padding → t = onlyStatus { s with outlen := t.outlen } (some e))

/-- What a failed command leaves (R830), whatever the word and the error. -/
def Obligations.FailedCommandLeavesTheData : Prop :=
  ∀ (v : Word) (s t : State) (e : CmdError), executeWord v s = .next t → t.errcode = some e →
    t.latch = none ∧ t.done = true ∧
    (e = .illegalCommand → t = onlyStatus s (some e)) ∧
    (∀ i, decode v = .ok i → BufferProducing i → t.outlen = 0) ∧
    (∀ i, decode v = .ok i → ¬ BufferProducing i → t.outlen = s.outlen) ∧
    (¬ (decode v = .ok .cbcdec ∧ e = .padding) → t = onlyStatus { s with outlen := t.outlen } (some e)) ∧
    (decode v = .ok .cbcdec → e = .padding →
      t = onlyStatus { s with outlen := 0, state := t.state, buf := t.buf, rk := s.ensureRoundKeys.rk, kv := true } (some e) ∧
      t.state = blockAt s.cbcPlaintext (s.len.toNat - 16) ∧
      (∀ k : Nat, k < s.len.toNat → t.bufByte (s.dst.toNat + k) = s.cbcPlaintext.getD k 0) ∧
      (∀ a : Nat, a < s.dst.toNat ∨ s.dst.toNat + s.len.toNat ≤ a → t.bufByte a = s.bufByte a))

/-! ## Frames -/

/-- What NOP, the byte commands and the transformations of STATE leave unchanged (R302): everything but the completion
fields and their one result register; every byte of BUF. -/
def Obligations.RegisterCommandFrame : Prop :=
  ∀ (s t : State),
    ((exec .nop s = .next t ∨ exec .gfmul s = .next t ∨ exec .gfdbl s = .next t ∨ exec .sbox s = .next t ∨
        exec .invsbox s = .next t) →
      t = onlyStatus { s with res := t.res } none ∧ (exec .nop s = .next t → t.res = s.res) ∧
      ∀ a, t.bufByte a = s.bufByte a) ∧
    ((exec .subbytes s = .next t ∨ exec .invsubbytes s = .next t ∨ exec .shiftrows s = .next t ∨
        exec .invshiftrows s = .next t ∨ exec .mixcolumns s = .next t ∨ exec .invmixcolumns s = .next t) →
      t = onlyStatus { s with state := t.state } none ∧ ∀ a, t.bufByte a = s.bufByte a)

/-- What the key and round-key commands leave unchanged (R302): everything but the completion fields and KEY, KV (KEYLD),
RK, KV (KEYEXP) or STATE, RK, KV (ADDROUNDKEY, ENCROUND, DECROUND, any round number); every byte of BUF. -/
def Obligations.KeyAndRoundCommandFrame : Prop :=
  ∀ (s t : State) (k : BitVec 4),
    (exec .keyld s = .next t →
      t = onlyStatus { s with key := t.key, kv := t.kv } t.errcode ∧ ∀ a, t.bufByte a = s.bufByte a) ∧
    (exec .keyexp s = .next t →
      t = onlyStatus { s with rk := t.rk, kv := t.kv } none ∧ ∀ a, t.bufByte a = s.bufByte a) ∧
    ((exec (.addroundkey k) s = .next t ∨ exec (.encround k) s = .next t ∨ exec (.decround k) s = .next t) →
      t = onlyStatus { s with state := t.state, rk := t.rk, kv := t.kv } t.errcode ∧ ∀ a, t.bufByte a = s.bufByte a)

/-- What the storing commands leave unchanged (R203, R204, R302): ENCBLK, DECBLK, CBCENC and CBCDEC everything but the
completion fields, STATE, OUTLEN, RK, KV and the bytes of their output region; PAD everything but the completion fields,
OUTLEN and the bytes of its output region. -/
def Obligations.StoringCommandFrame : Prop :=
  ∀ (i : Instr) (s t : State), exec i s = .next t →
    (i = .encblk ∨ i = .decblk ∨ i = .cbcenc ∨ i = .cbcdec →
      t = onlyStatus { s with state := t.state, outlen := t.outlen, rk := t.rk, kv := t.kv, buf := t.buf } t.errcode ∧
      ∀ a, ¬ Inside (outputRegion s i) a → t.bufByte a = s.bufByte a) ∧
    (i = .pad →
      t = onlyStatus { s with outlen := t.outlen, buf := t.buf } t.errcode ∧
      ∀ a, ¬ Inside (outputRegion s i) a → t.bufByte a = s.bufByte a) ∧
    (i = .unpad →
      t = onlyStatus { s with outlen := t.outlen } t.errcode ∧ ∀ a, t.bufByte a = s.bufByte a)

/-- A command reads no byte of BUF outside its input region (R204): with the rest of BUF replaced by anything, it
completes with the same registers and writes the same bytes. -/
def Obligations.CommandReadsOnlyItsRegion : Prop :=
  ∀ (i : Instr) (s t : State) (m : Memory) (d : Nat),
    (∀ a, Inside (inputRegion s i) a → State.bufByte { s with buf := m, bufDraw := d } a = s.bufByte a) →
    exec i s = .next t →
    ∃ t', exec i { s with buf := m, bufDraw := d } = .next t' ∧
      { t' with buf := t.buf, bufDraw := t.bufDraw } = t ∧
      (t.errcode = none ∨ (i = .cbcdec ∧ t.errcode = some .padding) →
        ∀ a, Inside (outputRegion s i) a → t'.bufByte a = t.bufByte a)

/-- The result of every command is a function of KEY and never of a stale RK (R118): with KV = 0 and any RK it leaves
what it leaves with KV as it was, but for RK and KV themselves. -/
def Obligations.StaleRoundKeysNeverMatter : Prop :=
  ∀ (i : Instr) (s t : State) (stale : RoundKeys), s.KeysCurrent → exec i s = .next t →
    ∃ t', exec i { s with kv := false, rk := stale } = .next t' ∧ { t' with kv := t.kv, rk := t.rk } = t ∧
      t'.KeysCurrent

/-! ## The algorithms -/

/-- GFMul is commutative, with identity 1 and zero 0 (R402). -/
def Obligations.GfMulLaws : Prop :=
  ∀ a b : Byte, gfMul a b = gfMul b a ∧ gfMul a 0x01 = a ∧ gfMul a 0x00 = 0x00

/-- GFMul is the product of polynomials modulo 0x11B, GFDouble the product with x; GFMul distributes over XOR, is
associative, and every nonzero byte has exactly one inverse (R403). -/
def Obligations.GfMulIsTheFieldProduct : Prop :=
  (∀ a b : Byte, (gfMul a b).toNat = polyRemainder (polyProduct a b)) ∧
  (∀ a : Byte, (gfDouble a).toNat = polyRemainder (2 * a.toNat) ∧ gfMul a 0x02 = gfDouble a) ∧
  (∀ a b c : Byte, gfMul a (b ^^^ c) = gfMul a b ^^^ gfMul a c) ∧
  (∀ a b c : Byte, gfMul (gfMul a b) c = gfMul a (gfMul b c)) ∧
  (∀ a : Byte, a ≠ 0 → ∃ b, gfMul a b = 0x01 ∧ ∀ c, gfMul a c = 0x01 → c = b)

/-- The tables: SBOX is the affine map of the field inverse (R406), SBOX and INVSBOX are inverse permutations, and SBOX
has no fixed point (R407). -/
def Obligations.TablesAreTheConstruction : Prop :=
  sbox 0x00 = affineMap 0x00 ∧ (∀ x y : Byte, gfMul x y = 0x01 → sbox x = affineMap y) ∧
  (∀ x : Byte, invSbox (sbox x) = x ∧ sbox (invSbox x) = x ∧ sbox x ≠ x)

/-- The laws of the transformations (R460): the inverse pairs, SubBytes commutes with ShiftRows, MixColumns is linear over
XOR, row 0 of ShiftRows is unchanged and four of them are the identity, columns of four equal bytes are fixed points. -/
def Obligations.TransformationLaws : Prop :=
  ∀ B D : Block,
    (invSubBytes (subBytes B) = B ∧ subBytes (invSubBytes B) = B ∧ invShiftRows (shiftRows B) = B ∧
      shiftRows (invShiftRows B) = B ∧ invMixColumns (mixColumns B) = B ∧ mixColumns (invMixColumns B) = B) ∧
    (shiftRows (subBytes B) = subBytes (shiftRows B) ∧ shiftRows (invSubBytes B) = invSubBytes (shiftRows B) ∧
      invShiftRows (subBytes B) = subBytes (invShiftRows B) ∧
      invShiftRows (invSubBytes B) = invSubBytes (invShiftRows B)) ∧
    (mixColumns (xorBlock B D) = xorBlock (mixColumns B) (mixColumns D) ∧
      invMixColumns (xorBlock B D) = xorBlock (invMixColumns B) (invMixColumns D)) ∧
    (∀ c : Nat, c < 4 → cell (shiftRows B) 0 c = cell B 0 c ∧ cell (invShiftRows B) 0 c = cell B 0 c) ∧
    shiftRows (shiftRows (shiftRows (shiftRows B))) = B ∧
    ((∀ r c : Nat, cell B r c = cell B 0 c) → mixColumns B = B) ∧
    addRoundKey (addRoundKey B D) D = B

/-- Each decryption step is the exact inverse of the encryption round of its number (R463), and the inverse cipher of the
cipher, both ways (R553), for any round keys. -/
def Obligations.CipherIsInverted : Prop :=
  (∀ (B : Block) (rk : RoundKeys) (k : Fin 11),
    decRound (encRound B rk k) rk k = B ∧ encRound (decRound B rk k) rk k = B) ∧
  (∀ (B : Block) (rk : RoundKeys), invCipher (cipher B rk) rk = B ∧ cipher (invCipher B rk) rk = B)

/-- The key schedule (R500): the first four words are the key's, every later word is the word before it, transformed where
its index is a multiple of 4, XORed with the word four before it, the k-th constant GFDouble applied k-1 times to 1; round
key k is the words 4k to 4k+3. -/
def Obligations.KeyScheduleRecurrence : Prop :=
  ∀ K : Block,
    (∀ (j : Nat) (_ : j < 4), keyWord K j = #v[K[4 * j], K[4 * j + 1], K[4 * j + 2], K[4 * j + 3]]) ∧
    (∀ i : Nat, 4 ≤ i → i ≤ 43 →
      let t := keyWord K (i - 1)
      let u := keyWord K (i - 4)
      keyWord K i =
        if i % 4 = 0 then
          #v[sbox t[1] ^^^ (gfDouble^[i / 4 - 1] 0x01) ^^^ u[0], sbox t[2] ^^^ u[1], sbox t[3] ^^^ u[2], sbox t[0] ^^^ u[3]]
        else #v[t[0] ^^^ u[0], t[1] ^^^ u[1], t[2] ^^^ u[2], t[3] ^^^ u[3]]) ∧
    (∀ (k : Fin 11) (b : Fin 16),
      (keyExpansion K)[k][b] = (keyWord K (4 * k.val + b.val / 4))[b.val % 4]) ∧
    (keyExpansion K)[0] = K

/-- Padding (R600, R601): n bytes of value n, 1 <= n <= 16, to the smallest multiple of 16 that is at least the length
plus 1. -/
def Obligations.PaddingLengths : Prop :=
  ∀ d : List Byte, ∃ n : Nat, n = 16 - d.length % 16 ∧ 1 ≤ n ∧ n ≤ 16 ∧
    padData d = d ++ List.replicate n (BitVec.ofNat 8 n) ∧ (padData d).length = 16 * (d.length / 16 + 1) ∧
    (∀ m : Nat, m % 16 = 0 → d.length + 1 ≤ m → (padData d).length ≤ m) ∧
    (d.length % 16 = 0 → padData d = d ++ List.replicate 16 0x10)

/-- PadCheck (R602, R603): fails on empty data, on a last byte of 0 or above 16, and on one above the length; else the
length less the last byte, whatever the other bytes hold. -/
def Obligations.PadCheckReadsTheLastByte : Prop :=
  padCheck [] = none ∧
  (∀ (d : List Byte) (x : Byte), padCheck (d ++ [x]) =
    if x.toNat = 0 ∨ 16 < x.toNat ∨ d.length + 1 < x.toNat then none else some (d.length + 1 - x.toNat))

/-- The chaining rules of CBC (R650, R651) block by block, and the lengths (R654). -/
def Obligations.CbcChainingRules : Prop :=
  ∀ (rk : RoundKeys) (iv : Block),
    (∀ P : List Byte,
      (cbcEncrypt P rk iv).length = 16 * (P.length / 16 + 1) ∧ (padData P).length = 16 * (P.length / 16 + 1) ∧
      ∀ i : Nat, i < P.length / 16 + 1 →
        blockAt (cbcEncrypt P rk iv) (16 * i) =
          cipher (xorBlock (blockAt (padData P) (16 * i))
            (if i = 0 then iv else blockAt (cbcEncrypt P rk iv) (16 * (i - 1)))) rk) ∧
    (∀ (C : List Byte) (m : Nat), C.length = 16 * m →
      (cbcDecryptRaw C rk iv).length = C.length ∧
      ∀ i : Nat, i < m →
        blockAt (cbcDecryptRaw C rk iv) (16 * i) =
          xorBlock (invCipher (blockAt C (16 * i)) rk) (if i = 0 then iv else blockAt C (16 * (i - 1))))

/-- CBC decryption of CBC encryption is the padded plaintext, of any length (R653). -/
def Obligations.CbcRoundTrip : Prop :=
  ∀ (P : List Byte) (rk : RoundKeys) (iv : Block),
    cbcDecryptRaw (cbcEncrypt P rk iv) rk iv = padData P ∧ padCheck (padData P) = some P.length

/-- Error propagation (R655): a change within ciphertext block i changes plaintext block i by the change of its inverse
cipher, block i+1 by exactly the same change, and no other block. -/
def Obligations.CbcErrorPropagation : Prop :=
  ∀ (C D : List Byte) (m i : Nat) (rk : RoundKeys) (iv : Block),
    C.length = 16 * m → D.length = 16 * m → i < m →
    (∀ j : Nat, j < m → j ≠ i → blockAt D (16 * j) = blockAt C (16 * j)) →
    (xorBlock (blockAt (cbcDecryptRaw D rk iv) (16 * i)) (blockAt (cbcDecryptRaw C rk iv) (16 * i)) =
      xorBlock (invCipher (blockAt D (16 * i)) rk) (invCipher (blockAt C (16 * i)) rk)) ∧
    (i + 1 < m →
      xorBlock (blockAt (cbcDecryptRaw D rk iv) (16 * (i + 1))) (blockAt (cbcDecryptRaw C rk iv) (16 * (i + 1))) =
        xorBlock (blockAt D (16 * i)) (blockAt C (16 * i))) ∧
    (∀ j : Nat, j < m → j ≠ i → j ≠ i + 1 →
      blockAt (cbcDecryptRaw D rk iv) (16 * j) = blockAt (cbcDecryptRaw C rk iv) (16 * j))

/-- ENCROUND 0, 1, ..., 10 leave the cipher of STATE in STATE, and DECROUND 10, 9, ..., 0 its inverse cipher (R480). -/
def Obligations.RoundCommandsMakeTheCipher : Prop :=
  ∀ s : State, s.KeysCurrent →
    (∃ t, execAll ((List.range 11).map fun k => .encround (BitVec.ofNat 4 k)) s = .next t ∧
      t.state = cipher s.state (keyExpansion s.key)) ∧
    (∃ t, execAll ((List.range 11).map fun k => .decround (BitVec.ofNat 4 (10 - k))) s = .next t ∧
      t.state = invCipher s.state (keyExpansion s.key))

/-- DECBLK of the output of ENCBLK under the same KEY puts the original block at its DST (R561, R553). -/
def Obligations.DecblkRestoresTheBlock : Prop :=
  ∀ (s : State) (d : Word), s.KeysCurrent → expectedError s .encblk = none →
    d.toNat + 16 ≤ s.config.bufSize → ¬ PartlyOverlap s.dst.toNat 16 d.toNat 16 →
    ∃ t u, exec .encblk s = .next t ∧ exec .decblk { t with src := s.dst, dst := d } = .next u ∧
      u.errcode = none ∧ ∀ b : Nat, b < 16 → u.bufByte (d.toNat + b) = s.bufByte (s.src.toNat + b)

/-- CBCDEC of the output of CBCENC under the same KEY and IV gives the message back, its length in OUTLEN (R653). -/
def Obligations.CbcdecRestoresTheMessage : Prop :=
  ∀ (s : State) (d : Word), s.KeysCurrent → s.config.legal = true → expectedError s .cbcenc = none →
    d.toNat + 16 * (s.len.toNat / 16 + 1) ≤ s.config.bufSize →
    ¬ PartlyOverlap s.dst.toNat (16 * (s.len.toNat / 16 + 1)) d.toNat (16 * (s.len.toNat / 16 + 1)) →
    ∃ t u, exec .cbcenc s = .next t ∧ exec .cbcdec { t with src := s.dst, dst := d, len := t.outlen } = .next u ∧
      u.errcode = none ∧ u.outlen = s.len ∧
      ∀ b : Nat, b < s.len.toNat → u.bufByte (d.toNat + b) = s.bufByte (s.src.toNat + b)
end

