-- ==== Sys2Proof/Laws/Bytes.lean ====
section
/-! SUPPORT. The laws of blocks, byte sequences and byte lanes. -/

namespace Sys2Proof.Machine

/-! ### Blocks by cells -/

@[simp] theorem getElem_blockOfCells (f : Nat → Nat → Byte) (k : Nat) (h : k < 16) :
    (blockOfCells f)[k] = f (k % 4) (k / 4) := by simp [blockOfCells]

@[simp] theorem getElem_mapBytes (f : Byte → Byte) (B : Block) (k : Nat) (h : k < 16) :
    (mapBytes f B)[k] = f B[k] := by simp [mapBytes]

@[simp] theorem getElem_xorBlock (B D : Block) (k : Nat) (h : k < 16) :
    (xorBlock B D)[k] = B[k] ^^^ D[k] := by simp [xorBlock]

@[simp] theorem cell_blockOfCells (f : Nat → Nat → Byte) (r c : Nat) :
    cell (blockOfCells f) r c = f (r % 4) (c % 4) := by
  simp only [cell, getElem_blockOfCells]
  congr 1 <;> omega

@[simp] theorem cell_mapBytes (f : Byte → Byte) (B : Block) (r c : Nat) :
    cell (mapBytes f B) r c = f (cell B r c) := by simp [cell]

@[simp] theorem cell_xorBlock (B D : Block) (r c : Nat) :
    cell (xorBlock B D) r c = cell B r c ^^^ cell D r c := by simp [cell]

/-- Rows and columns are taken mod 4. -/
theorem cell_congr (B : Block) {r r' c c' : Nat} (hr : r % 4 = r' % 4) (hc : c % 4 = c' % 4) :
    cell B r c = cell B r' c' := by simp only [cell, hr, hc]

/-- Byte k of a block is its cell in row k mod 4 and column k div 4 (R450). -/
theorem getElem_eq_cell (B : Block) (k : Nat) (h : k < 16) : B[k] = cell B k (k / 4) := by
  have e : k % 4 + 4 * (k / 4 % 4) = k := by omega
  simp only [cell, e]

/-- A block is determined by its cells. -/
theorem block_ext_cells {B D : Block} (h : ∀ r c, r < 4 → c < 4 → cell B r c = cell D r c) : B = D := by
  refine Vector.ext fun k hk => ?_
  rw [getElem_eq_cell B k hk, getElem_eq_cell D k hk, cell_congr B (r' := k % 4) (by omega) rfl,
    cell_congr D (r' := k % 4) (by omega) rfl]
  exact h _ _ (by omega) (by omega)

theorem xorBlock_self_right (B D : Block) : xorBlock (xorBlock B D) D = B := by
  refine Vector.ext fun k hk => ?_
  simp

theorem xorBlock_comm (B D : Block) : xorBlock B D = xorBlock D B := by
  refine Vector.ext fun k hk => ?_
  simp [BitVec.xor_comm]

/-- The chaining value cancels in the difference of two chained blocks. -/
theorem xorBlock_cancel_right (B D E : Block) : xorBlock (xorBlock B E) (xorBlock D E) = xorBlock B D := by
  refine Vector.ext fun k hk => ?_
  simp only [getElem_xorBlock]
  rw [BitVec.xor_assoc, BitVec.xor_comm E[k], BitVec.xor_assoc, BitVec.xor_self, BitVec.xor_zero]

/-- The block itself cancels in the difference of two blocks chained to it. -/
theorem xorBlock_cancel_left (B D E : Block) : xorBlock (xorBlock E B) (xorBlock E D) = xorBlock B D := by
  rw [xorBlock_comm E B, xorBlock_comm E D, xorBlock_cancel_right]

/-! ### Byte sequences and their blocks -/

@[simp] theorem getElem_blockAt (d : List Byte) (a k : Nat) (h : k < 16) :
    (blockAt d a)[k] = d.getD (a + k) 0 := by simp [blockAt]

/-- A block of a byte sequence depends on its 16 bytes alone. -/
theorem blockAt_congr {d e : List Byte} {a b : Nat} (h : ∀ k, k < 16 → d.getD (a + k) 0 = e.getD (b + k) 0) :
    blockAt d a = blockAt e b := by
  refine Vector.ext fun k hk => ?_
  simp only [getElem_blockAt]; exact h k hk

@[simp] theorem length_blocksOf (d : List Byte) : (blocksOf d).length = d.length / 16 := by simp [blocksOf]

@[simp] theorem length_bytesOf (bs : List Block) : (bytesOf bs).length = 16 * bs.length := by
  induction bs with
  | nil => rfl
  | cons B bs ih => simp only [bytesOf, List.flatMap_cons, List.length_append] at *; simp [ih]; omega

/-- Byte k of a concatenation of blocks is byte `k mod 16` of block `k div 16` (R221). -/
theorem getD_bytesOf (bs : List Block) (i k : Nat) (hi : i < bs.length) (hk : k < 16) :
    (bytesOf bs).getD (16 * i + k) 0 = bs[i][k] := by
  induction bs generalizing i with
  | nil => simp at hi
  | cons B bs ih =>
    have e : bytesOf (B :: bs) = B.toList ++ bytesOf bs := rfl
    cases i with
    | zero =>
      rw [e, List.getD_append _ _ _ _ (by simpa using hk)]
      simp [List.getD, hk]
    | succ i =>
      have hk' : (B.toList).length ≤ 16 * (i + 1) + k := by simp; omega
      rw [e, List.getD_append_right _ _ _ _ hk']
      have : 16 * (i + 1) + k - B.toList.length = 16 * i + k := by simp; omega
      rw [this, ih i (by simpa using hi)]
      simp

/-- Block i of a concatenation of blocks. -/
theorem blockAt_bytesOf (bs : List Block) (i : Nat) (hi : i < bs.length) : blockAt (bytesOf bs) (16 * i) = bs[i] := by
  refine Vector.ext fun k hk => ?_
  rw [getElem_blockAt, getD_bytesOf bs i k hi hk]

theorem getElem_blocksOf (d : List Byte) (i : Nat) (hi : i < (blocksOf d).length) :
    (blocksOf d)[i] = blockAt d (16 * i) := by simp [blocksOf]

/-- Cutting a concatenation of blocks gives the blocks. -/
theorem blocksOf_bytesOf (bs : List Block) : blocksOf (bytesOf bs) = bs := by
  refine List.ext_getElem (by simp) fun i hi hi' => ?_
  rw [getElem_blocksOf, blockAt_bytesOf bs i hi']

/-- Joining the blocks of a byte sequence of whole blocks gives it back. -/
theorem bytesOf_blocksOf {d : List Byte} (h : d.length % 16 = 0) : bytesOf (blocksOf d) = d := by
  refine List.ext_getElem (by simp; omega) fun k hk hk' => ?_
  have hi : k / 16 < (blocksOf d).length := by simp; omega
  have e : 16 * (k / 16) + k % 16 = k := by omega
  have := getD_bytesOf (blocksOf d) (k / 16) (k % 16) hi (by omega)
  rw [getElem_blocksOf, getElem_blockAt, e] at this
  rwa [List.getD_eq_getElem _ _ hk, List.getD_eq_getElem _ _ hk'] at this

/-- A block as a list, cut out again. -/
theorem blockAt_toList (B : Block) : blockAt B.toList 0 = B := by
  refine Vector.ext fun k hk => ?_
  simp [List.getD, hk]

/-! ### Byte lanes -/

theorem toNat_lane (v : Word) (i : Nat) : (lane v i).toNat = v.toNat / 2 ^ (8 * i) % 256 := by
  simp [lane, BitVec.extractLsb'_toNat, Nat.shiftRight_eq_div_pow]

theorem toNat_wordOfLanes (b0 b1 b2 b3 : Byte) :
    (wordOfLanes b0 b1 b2 b3).toNat = b0.toNat + 2 ^ 8 * b1.toNat + 2 ^ 16 * b2.toNat + 2 ^ 24 * b3.toNat := by
  have h0 := b0.isLt
  have h1 := b1.isLt
  have h2 := b2.isLt
  have h3 := b3.isLt
  have shifted : ∀ (b : Byte) (n : Nat), n ≤ 24 → (b.setWidth 32 <<< n).toNat = 2 ^ n * b.toNat := by
    intro b n hn
    have hb := b.isLt
    have hp : 2 ^ n ≤ 2 ^ 24 := Nat.pow_le_pow_right (by omega) hn
    have : 2 ^ n * b.toNat < 2 ^ 32 := by nlinarith
    rw [BitVec.toNat_shiftLeft, BitVec.toNat_setWidth, Nat.shiftLeft_eq, Nat.mod_eq_of_lt (by omega : b.toNat < 2 ^ 32),
      Nat.mul_comm, Nat.mod_eq_of_lt this]
  simp only [wordOfLanes, BitVec.toNat_or, shifted _ 8 (by omega), shifted _ 16 (by omega), shifted _ 24 (by omega)]
  rw [BitVec.toNat_setWidth, Nat.mod_eq_of_lt (by omega : b0.toNat < 2 ^ 32), Nat.or_comm b0.toNat,
    ← Nat.two_pow_add_eq_or_of_lt (i := 8) (by omega), Nat.or_comm _ (2 ^ 16 * b2.toNat),
    ← Nat.two_pow_add_eq_or_of_lt (i := 16) (by omega), Nat.or_comm _ (2 ^ 24 * b3.toNat),
    ← Nat.two_pow_add_eq_or_of_lt (i := 24) (by omega)]
  omega

end Sys2Proof.Machine
end

