-- ==== Sys2Proof/Laws/State.lean ====
section
/-! SUPPORT. One lemma per field per update of the state, so that no later proof unfolds a record update. -/

namespace Sys2Proof.Machine.State

variable (s : State)

section memWrite

variable (a : Nat) (v : List Byte)

@[simp] theorem memWrite_config : (s.memWrite a v).config = s.config := rfl
@[simp] theorem memWrite_cmd : (s.memWrite a v).cmd = s.cmd := rfl
@[simp] theorem memWrite_latch : (s.memWrite a v).latch = s.latch := rfl
@[simp] theorem memWrite_done : (s.memWrite a v).done = s.done := rfl
@[simp] theorem memWrite_errcode : (s.memWrite a v).errcode = s.errcode := rfl
@[simp] theorem memWrite_kv : (s.memWrite a v).kv = s.kv := rfl
@[simp] theorem memWrite_hz : (s.memWrite a v).hz = s.hz := rfl
@[simp] theorem memWrite_ie : (s.memWrite a v).ie = s.ie := rfl
@[simp] theorem memWrite_src : (s.memWrite a v).src = s.src := rfl
@[simp] theorem memWrite_dst : (s.memWrite a v).dst = s.dst := rfl
@[simp] theorem memWrite_len : (s.memWrite a v).len = s.len := rfl
@[simp] theorem memWrite_outlen : (s.memWrite a v).outlen = s.outlen := rfl
@[simp] theorem memWrite_key : (s.memWrite a v).key = s.key := rfl
@[simp] theorem memWrite_iv : (s.memWrite a v).iv = s.iv := rfl
@[simp] theorem memWrite_state : (s.memWrite a v).state = s.state := rfl
@[simp] theorem memWrite_opa : (s.memWrite a v).opa = s.opa := rfl
@[simp] theorem memWrite_opb : (s.memWrite a v).opb = s.opb := rfl
@[simp] theorem memWrite_res : (s.memWrite a v).res = s.res := rfl
@[simp] theorem memWrite_rk : (s.memWrite a v).rk = s.rk := rfl
@[simp] theorem memWrite_buf : (s.memWrite a v).buf = storeBytes s.buf a v := rfl
@[simp] theorem memWrite_bufDraw : (s.memWrite a v).bufDraw = s.bufDraw := rfl
@[simp] theorem memWrite_freeReads : (s.memWrite a v).freeReads = s.freeReads := rfl
@[simp] theorem memWrite_response : (s.memWrite a v).response = s.response := rfl
@[simp] theorem memWrite_events : (s.memWrite a v).events = s.events := rfl

end memWrite

section setRes

variable (v : Byte)

@[simp] theorem setRes_config : (s.setRes v).config = s.config := rfl
@[simp] theorem setRes_cmd : (s.setRes v).cmd = s.cmd := rfl
@[simp] theorem setRes_latch : (s.setRes v).latch = s.latch := rfl
@[simp] theorem setRes_done : (s.setRes v).done = s.done := rfl
@[simp] theorem setRes_errcode : (s.setRes v).errcode = s.errcode := rfl
@[simp] theorem setRes_kv : (s.setRes v).kv = s.kv := rfl
@[simp] theorem setRes_hz : (s.setRes v).hz = s.hz := rfl
@[simp] theorem setRes_ie : (s.setRes v).ie = s.ie := rfl
@[simp] theorem setRes_src : (s.setRes v).src = s.src := rfl
@[simp] theorem setRes_dst : (s.setRes v).dst = s.dst := rfl
@[simp] theorem setRes_len : (s.setRes v).len = s.len := rfl
@[simp] theorem setRes_outlen : (s.setRes v).outlen = s.outlen := rfl
@[simp] theorem setRes_key : (s.setRes v).key = s.key := rfl
@[simp] theorem setRes_iv : (s.setRes v).iv = s.iv := rfl
@[simp] theorem setRes_state : (s.setRes v).state = s.state := rfl
@[simp] theorem setRes_opa : (s.setRes v).opa = s.opa := rfl
@[simp] theorem setRes_opb : (s.setRes v).opb = s.opb := rfl
@[simp] theorem setRes_res : (s.setRes v).res = v := rfl
@[simp] theorem setRes_rk : (s.setRes v).rk = s.rk := rfl
@[simp] theorem setRes_buf : (s.setRes v).buf = s.buf := rfl
@[simp] theorem setRes_bufDraw : (s.setRes v).bufDraw = s.bufDraw := rfl
@[simp] theorem setRes_freeReads : (s.setRes v).freeReads = s.freeReads := rfl
@[simp] theorem setRes_response : (s.setRes v).response = s.response := rfl
@[simp] theorem setRes_events : (s.setRes v).events = s.events := rfl

end setRes

section setState

variable (B : Block)

@[simp] theorem setState_config : (s.setState B).config = s.config := rfl
@[simp] theorem setState_cmd : (s.setState B).cmd = s.cmd := rfl
@[simp] theorem setState_latch : (s.setState B).latch = s.latch := rfl
@[simp] theorem setState_done : (s.setState B).done = s.done := rfl
@[simp] theorem setState_errcode : (s.setState B).errcode = s.errcode := rfl
@[simp] theorem setState_kv : (s.setState B).kv = s.kv := rfl
@[simp] theorem setState_hz : (s.setState B).hz = s.hz := rfl
@[simp] theorem setState_ie : (s.setState B).ie = s.ie := rfl
@[simp] theorem setState_src : (s.setState B).src = s.src := rfl
@[simp] theorem setState_dst : (s.setState B).dst = s.dst := rfl
@[simp] theorem setState_len : (s.setState B).len = s.len := rfl
@[simp] theorem setState_outlen : (s.setState B).outlen = s.outlen := rfl
@[simp] theorem setState_key : (s.setState B).key = s.key := rfl
@[simp] theorem setState_iv : (s.setState B).iv = s.iv := rfl
@[simp] theorem setState_state : (s.setState B).state = B := rfl
@[simp] theorem setState_opa : (s.setState B).opa = s.opa := rfl
@[simp] theorem setState_opb : (s.setState B).opb = s.opb := rfl
@[simp] theorem setState_res : (s.setState B).res = s.res := rfl
@[simp] theorem setState_rk : (s.setState B).rk = s.rk := rfl
@[simp] theorem setState_buf : (s.setState B).buf = s.buf := rfl
@[simp] theorem setState_bufDraw : (s.setState B).bufDraw = s.bufDraw := rfl
@[simp] theorem setState_freeReads : (s.setState B).freeReads = s.freeReads := rfl
@[simp] theorem setState_response : (s.setState B).response = s.response := rfl
@[simp] theorem setState_events : (s.setState B).events = s.events := rfl

end setState

section setOutlen

variable (n : Nat)

@[simp] theorem setOutlen_config : (s.setOutlen n).config = s.config := rfl
@[simp] theorem setOutlen_cmd : (s.setOutlen n).cmd = s.cmd := rfl
@[simp] theorem setOutlen_latch : (s.setOutlen n).latch = s.latch := rfl
@[simp] theorem setOutlen_done : (s.setOutlen n).done = s.done := rfl
@[simp] theorem setOutlen_errcode : (s.setOutlen n).errcode = s.errcode := rfl
@[simp] theorem setOutlen_kv : (s.setOutlen n).kv = s.kv := rfl
@[simp] theorem setOutlen_hz : (s.setOutlen n).hz = s.hz := rfl
@[simp] theorem setOutlen_ie : (s.setOutlen n).ie = s.ie := rfl
@[simp] theorem setOutlen_src : (s.setOutlen n).src = s.src := rfl
@[simp] theorem setOutlen_dst : (s.setOutlen n).dst = s.dst := rfl
@[simp] theorem setOutlen_len : (s.setOutlen n).len = s.len := rfl
@[simp] theorem setOutlen_outlen : (s.setOutlen n).outlen = BitVec.ofNat 32 n := rfl
@[simp] theorem setOutlen_key : (s.setOutlen n).key = s.key := rfl
@[simp] theorem setOutlen_iv : (s.setOutlen n).iv = s.iv := rfl
@[simp] theorem setOutlen_state : (s.setOutlen n).state = s.state := rfl
@[simp] theorem setOutlen_opa : (s.setOutlen n).opa = s.opa := rfl
@[simp] theorem setOutlen_opb : (s.setOutlen n).opb = s.opb := rfl
@[simp] theorem setOutlen_res : (s.setOutlen n).res = s.res := rfl
@[simp] theorem setOutlen_rk : (s.setOutlen n).rk = s.rk := rfl
@[simp] theorem setOutlen_buf : (s.setOutlen n).buf = s.buf := rfl
@[simp] theorem setOutlen_bufDraw : (s.setOutlen n).bufDraw = s.bufDraw := rfl
@[simp] theorem setOutlen_freeReads : (s.setOutlen n).freeReads = s.freeReads := rfl
@[simp] theorem setOutlen_response : (s.setOutlen n).response = s.response := rfl
@[simp] theorem setOutlen_events : (s.setOutlen n).events = s.events := rfl

end setOutlen

section loadKey

variable (K : Block)

@[simp] theorem loadKey_config : (s.loadKey K).config = s.config := rfl
@[simp] theorem loadKey_cmd : (s.loadKey K).cmd = s.cmd := rfl
@[simp] theorem loadKey_latch : (s.loadKey K).latch = s.latch := rfl
@[simp] theorem loadKey_done : (s.loadKey K).done = s.done := rfl
@[simp] theorem loadKey_errcode : (s.loadKey K).errcode = s.errcode := rfl
@[simp] theorem loadKey_kv : (s.loadKey K).kv = false := rfl
@[simp] theorem loadKey_hz : (s.loadKey K).hz = s.hz := rfl
@[simp] theorem loadKey_ie : (s.loadKey K).ie = s.ie := rfl
@[simp] theorem loadKey_src : (s.loadKey K).src = s.src := rfl
@[simp] theorem loadKey_dst : (s.loadKey K).dst = s.dst := rfl
@[simp] theorem loadKey_len : (s.loadKey K).len = s.len := rfl
@[simp] theorem loadKey_outlen : (s.loadKey K).outlen = s.outlen := rfl
@[simp] theorem loadKey_key : (s.loadKey K).key = K := rfl
@[simp] theorem loadKey_iv : (s.loadKey K).iv = s.iv := rfl
@[simp] theorem loadKey_state : (s.loadKey K).state = s.state := rfl
@[simp] theorem loadKey_opa : (s.loadKey K).opa = s.opa := rfl
@[simp] theorem loadKey_opb : (s.loadKey K).opb = s.opb := rfl
@[simp] theorem loadKey_res : (s.loadKey K).res = s.res := rfl
@[simp] theorem loadKey_rk : (s.loadKey K).rk = s.rk := rfl
@[simp] theorem loadKey_buf : (s.loadKey K).buf = s.buf := rfl
@[simp] theorem loadKey_bufDraw : (s.loadKey K).bufDraw = s.bufDraw := rfl
@[simp] theorem loadKey_freeReads : (s.loadKey K).freeReads = s.freeReads := rfl
@[simp] theorem loadKey_response : (s.loadKey K).response = s.response := rfl
@[simp] theorem loadKey_events : (s.loadKey K).events = s.events := rfl

end loadKey

section expandKey

@[simp] theorem expandKey_config : (s.expandKey).config = s.config := rfl
@[simp] theorem expandKey_cmd : (s.expandKey).cmd = s.cmd := rfl
@[simp] theorem expandKey_latch : (s.expandKey).latch = s.latch := rfl
@[simp] theorem expandKey_done : (s.expandKey).done = s.done := rfl
@[simp] theorem expandKey_errcode : (s.expandKey).errcode = s.errcode := rfl
@[simp] theorem expandKey_kv : (s.expandKey).kv = true := rfl
@[simp] theorem expandKey_hz : (s.expandKey).hz = s.hz := rfl
@[simp] theorem expandKey_ie : (s.expandKey).ie = s.ie := rfl
@[simp] theorem expandKey_src : (s.expandKey).src = s.src := rfl
@[simp] theorem expandKey_dst : (s.expandKey).dst = s.dst := rfl
@[simp] theorem expandKey_len : (s.expandKey).len = s.len := rfl
@[simp] theorem expandKey_outlen : (s.expandKey).outlen = s.outlen := rfl
@[simp] theorem expandKey_key : (s.expandKey).key = s.key := rfl
@[simp] theorem expandKey_iv : (s.expandKey).iv = s.iv := rfl
@[simp] theorem expandKey_state : (s.expandKey).state = s.state := rfl
@[simp] theorem expandKey_opa : (s.expandKey).opa = s.opa := rfl
@[simp] theorem expandKey_opb : (s.expandKey).opb = s.opb := rfl
@[simp] theorem expandKey_res : (s.expandKey).res = s.res := rfl
@[simp] theorem expandKey_rk : (s.expandKey).rk = keyExpansion s.key := rfl
@[simp] theorem expandKey_buf : (s.expandKey).buf = s.buf := rfl
@[simp] theorem expandKey_bufDraw : (s.expandKey).bufDraw = s.bufDraw := rfl
@[simp] theorem expandKey_freeReads : (s.expandKey).freeReads = s.freeReads := rfl
@[simp] theorem expandKey_response : (s.expandKey).response = s.response := rfl
@[simp] theorem expandKey_events : (s.expandKey).events = s.events := rfl

end expandKey

section accept

variable (v : Word)

@[simp] theorem accept_config : (s.accept v).config = s.config := rfl
@[simp] theorem accept_cmd : (s.accept v).cmd = v := rfl
@[simp] theorem accept_latch : (s.accept v).latch = some v := rfl
@[simp] theorem accept_done : (s.accept v).done = false := rfl
@[simp] theorem accept_errcode : (s.accept v).errcode = none := rfl
@[simp] theorem accept_kv : (s.accept v).kv = s.kv := rfl
@[simp] theorem accept_hz : (s.accept v).hz = s.hz := rfl
@[simp] theorem accept_ie : (s.accept v).ie = s.ie := rfl
@[simp] theorem accept_src : (s.accept v).src = s.src := rfl
@[simp] theorem accept_dst : (s.accept v).dst = s.dst := rfl
@[simp] theorem accept_len : (s.accept v).len = s.len := rfl
@[simp] theorem accept_outlen : (s.accept v).outlen = s.outlen := rfl
@[simp] theorem accept_key : (s.accept v).key = s.key := rfl
@[simp] theorem accept_iv : (s.accept v).iv = s.iv := rfl
@[simp] theorem accept_state : (s.accept v).state = s.state := rfl
@[simp] theorem accept_opa : (s.accept v).opa = s.opa := rfl
@[simp] theorem accept_opb : (s.accept v).opb = s.opb := rfl
@[simp] theorem accept_res : (s.accept v).res = s.res := rfl
@[simp] theorem accept_rk : (s.accept v).rk = s.rk := rfl
@[simp] theorem accept_buf : (s.accept v).buf = s.buf := rfl
@[simp] theorem accept_bufDraw : (s.accept v).bufDraw = s.bufDraw := rfl
@[simp] theorem accept_freeReads : (s.accept v).freeReads = s.freeReads := rfl
@[simp] theorem accept_response : (s.accept v).response = s.response := rfl
@[simp] theorem accept_events : (s.accept v).events = s.events := rfl

end accept

section complete

variable (e : Option CmdError)

@[simp] theorem complete_config : (s.complete e).config = s.config := rfl
@[simp] theorem complete_cmd : (s.complete e).cmd = s.cmd := rfl
@[simp] theorem complete_latch : (s.complete e).latch = none := rfl
@[simp] theorem complete_done : (s.complete e).done = true := rfl
@[simp] theorem complete_errcode : (s.complete e).errcode = e := rfl
@[simp] theorem complete_kv : (s.complete e).kv = s.kv := rfl
@[simp] theorem complete_hz : (s.complete e).hz = s.hz := rfl
@[simp] theorem complete_ie : (s.complete e).ie = s.ie := rfl
@[simp] theorem complete_src : (s.complete e).src = s.src := rfl
@[simp] theorem complete_dst : (s.complete e).dst = s.dst := rfl
@[simp] theorem complete_len : (s.complete e).len = s.len := rfl
@[simp] theorem complete_outlen : (s.complete e).outlen = s.outlen := rfl
@[simp] theorem complete_key : (s.complete e).key = s.key := rfl
@[simp] theorem complete_iv : (s.complete e).iv = s.iv := rfl
@[simp] theorem complete_state : (s.complete e).state = s.state := rfl
@[simp] theorem complete_opa : (s.complete e).opa = s.opa := rfl
@[simp] theorem complete_opb : (s.complete e).opb = s.opb := rfl
@[simp] theorem complete_res : (s.complete e).res = s.res := rfl
@[simp] theorem complete_rk : (s.complete e).rk = s.rk := rfl
@[simp] theorem complete_buf : (s.complete e).buf = s.buf := rfl
@[simp] theorem complete_bufDraw : (s.complete e).bufDraw = s.bufDraw := rfl
@[simp] theorem complete_freeReads : (s.complete e).freeReads = s.freeReads := rfl
@[simp] theorem complete_response : (s.complete e).response = s.response := rfl
@[simp] theorem complete_events : (s.complete e).events = s.events := rfl

end complete

section respond

variable (r : BusResponse)

@[simp] theorem respond_config : (s.respond r).config = s.config := rfl
@[simp] theorem respond_cmd : (s.respond r).cmd = s.cmd := rfl
@[simp] theorem respond_latch : (s.respond r).latch = s.latch := rfl
@[simp] theorem respond_done : (s.respond r).done = s.done := rfl
@[simp] theorem respond_errcode : (s.respond r).errcode = s.errcode := rfl
@[simp] theorem respond_kv : (s.respond r).kv = s.kv := rfl
@[simp] theorem respond_hz : (s.respond r).hz = s.hz := rfl
@[simp] theorem respond_ie : (s.respond r).ie = s.ie := rfl
@[simp] theorem respond_src : (s.respond r).src = s.src := rfl
@[simp] theorem respond_dst : (s.respond r).dst = s.dst := rfl
@[simp] theorem respond_len : (s.respond r).len = s.len := rfl
@[simp] theorem respond_outlen : (s.respond r).outlen = s.outlen := rfl
@[simp] theorem respond_key : (s.respond r).key = s.key := rfl
@[simp] theorem respond_iv : (s.respond r).iv = s.iv := rfl
@[simp] theorem respond_state : (s.respond r).state = s.state := rfl
@[simp] theorem respond_opa : (s.respond r).opa = s.opa := rfl
@[simp] theorem respond_opb : (s.respond r).opb = s.opb := rfl
@[simp] theorem respond_res : (s.respond r).res = s.res := rfl
@[simp] theorem respond_rk : (s.respond r).rk = s.rk := rfl
@[simp] theorem respond_buf : (s.respond r).buf = s.buf := rfl
@[simp] theorem respond_bufDraw : (s.respond r).bufDraw = s.bufDraw := rfl
@[simp] theorem respond_freeReads : (s.respond r).freeReads = s.freeReads := rfl
@[simp] theorem respond_response : (s.respond r).response = some r := rfl
@[simp] theorem respond_events : (s.respond r).events = s.events := rfl

end respond

section drawRead

@[simp] theorem drawRead_config : (s.drawRead).config = s.config := rfl
@[simp] theorem drawRead_cmd : (s.drawRead).cmd = s.cmd := rfl
@[simp] theorem drawRead_latch : (s.drawRead).latch = s.latch := rfl
@[simp] theorem drawRead_done : (s.drawRead).done = s.done := rfl
@[simp] theorem drawRead_errcode : (s.drawRead).errcode = s.errcode := rfl
@[simp] theorem drawRead_kv : (s.drawRead).kv = s.kv := rfl
@[simp] theorem drawRead_hz : (s.drawRead).hz = s.hz := rfl
@[simp] theorem drawRead_ie : (s.drawRead).ie = s.ie := rfl
@[simp] theorem drawRead_src : (s.drawRead).src = s.src := rfl
@[simp] theorem drawRead_dst : (s.drawRead).dst = s.dst := rfl
@[simp] theorem drawRead_len : (s.drawRead).len = s.len := rfl
@[simp] theorem drawRead_outlen : (s.drawRead).outlen = s.outlen := rfl
@[simp] theorem drawRead_key : (s.drawRead).key = s.key := rfl
@[simp] theorem drawRead_iv : (s.drawRead).iv = s.iv := rfl
@[simp] theorem drawRead_state : (s.drawRead).state = s.state := rfl
@[simp] theorem drawRead_opa : (s.drawRead).opa = s.opa := rfl
@[simp] theorem drawRead_opb : (s.drawRead).opb = s.opb := rfl
@[simp] theorem drawRead_res : (s.drawRead).res = s.res := rfl
@[simp] theorem drawRead_rk : (s.drawRead).rk = s.rk := rfl
@[simp] theorem drawRead_buf : (s.drawRead).buf = s.buf := rfl
@[simp] theorem drawRead_bufDraw : (s.drawRead).bufDraw = s.bufDraw := rfl
@[simp] theorem drawRead_freeReads : (s.drawRead).freeReads = s.freeReads + 1 := rfl
@[simp] theorem drawRead_response : (s.drawRead).response = s.response := rfl
@[simp] theorem drawRead_events : (s.drawRead).events = s.events := rfl

end drawRead

section droppedWrite

@[simp] theorem droppedWrite_config : (s.droppedWrite).config = s.config := rfl
@[simp] theorem droppedWrite_cmd : (s.droppedWrite).cmd = s.cmd := rfl
@[simp] theorem droppedWrite_latch : (s.droppedWrite).latch = s.latch := rfl
@[simp] theorem droppedWrite_done : (s.droppedWrite).done = s.done := rfl
@[simp] theorem droppedWrite_errcode : (s.droppedWrite).errcode = s.errcode := rfl
@[simp] theorem droppedWrite_kv : (s.droppedWrite).kv = s.kv := rfl
@[simp] theorem droppedWrite_hz : (s.droppedWrite).hz = true := rfl
@[simp] theorem droppedWrite_ie : (s.droppedWrite).ie = s.ie := rfl
@[simp] theorem droppedWrite_src : (s.droppedWrite).src = s.src := rfl
@[simp] theorem droppedWrite_dst : (s.droppedWrite).dst = s.dst := rfl
@[simp] theorem droppedWrite_len : (s.droppedWrite).len = s.len := rfl
@[simp] theorem droppedWrite_outlen : (s.droppedWrite).outlen = s.outlen := rfl
@[simp] theorem droppedWrite_key : (s.droppedWrite).key = s.key := rfl
@[simp] theorem droppedWrite_iv : (s.droppedWrite).iv = s.iv := rfl
@[simp] theorem droppedWrite_state : (s.droppedWrite).state = s.state := rfl
@[simp] theorem droppedWrite_opa : (s.droppedWrite).opa = s.opa := rfl
@[simp] theorem droppedWrite_opb : (s.droppedWrite).opb = s.opb := rfl
@[simp] theorem droppedWrite_res : (s.droppedWrite).res = s.res := rfl
@[simp] theorem droppedWrite_rk : (s.droppedWrite).rk = s.rk := rfl
@[simp] theorem droppedWrite_buf : (s.droppedWrite).buf = s.buf := rfl
@[simp] theorem droppedWrite_bufDraw : (s.droppedWrite).bufDraw = s.bufDraw := rfl
@[simp] theorem droppedWrite_freeReads : (s.droppedWrite).freeReads = s.freeReads := rfl
@[simp] theorem droppedWrite_response : (s.droppedWrite).response = s.response := rfl
@[simp] theorem droppedWrite_events : (s.droppedWrite).events = s.events := rfl

end droppedWrite

section writeStatus

variable (v : Word)

@[simp] theorem writeStatus_config : (s.writeStatus v).config = s.config := rfl
@[simp] theorem writeStatus_cmd : (s.writeStatus v).cmd = s.cmd := rfl
@[simp] theorem writeStatus_latch : (s.writeStatus v).latch = s.latch := rfl
@[simp] theorem writeStatus_done : (s.writeStatus v).done = (s.done && !v.getLsbD 1) := rfl
@[simp] theorem writeStatus_errcode : (s.writeStatus v).errcode = s.errcode := rfl
@[simp] theorem writeStatus_kv : (s.writeStatus v).kv = s.kv := rfl
@[simp] theorem writeStatus_hz : (s.writeStatus v).hz = (s.hz && !v.getLsbD 4) := rfl
@[simp] theorem writeStatus_ie : (s.writeStatus v).ie = s.ie := rfl
@[simp] theorem writeStatus_src : (s.writeStatus v).src = s.src := rfl
@[simp] theorem writeStatus_dst : (s.writeStatus v).dst = s.dst := rfl
@[simp] theorem writeStatus_len : (s.writeStatus v).len = s.len := rfl
@[simp] theorem writeStatus_outlen : (s.writeStatus v).outlen = s.outlen := rfl
@[simp] theorem writeStatus_key : (s.writeStatus v).key = s.key := rfl
@[simp] theorem writeStatus_iv : (s.writeStatus v).iv = s.iv := rfl
@[simp] theorem writeStatus_state : (s.writeStatus v).state = s.state := rfl
@[simp] theorem writeStatus_opa : (s.writeStatus v).opa = s.opa := rfl
@[simp] theorem writeStatus_opb : (s.writeStatus v).opb = s.opb := rfl
@[simp] theorem writeStatus_res : (s.writeStatus v).res = s.res := rfl
@[simp] theorem writeStatus_rk : (s.writeStatus v).rk = s.rk := rfl
@[simp] theorem writeStatus_buf : (s.writeStatus v).buf = s.buf := rfl
@[simp] theorem writeStatus_bufDraw : (s.writeStatus v).bufDraw = s.bufDraw := rfl
@[simp] theorem writeStatus_freeReads : (s.writeStatus v).freeReads = s.freeReads := rfl
@[simp] theorem writeStatus_response : (s.writeStatus v).response = s.response := rfl
@[simp] theorem writeStatus_events : (s.writeStatus v).events = s.events := rfl

end writeStatus

section ensureRoundKeys

@[simp] theorem ensureRoundKeys_config : s.ensureRoundKeys.config = s.config := by unfold ensureRoundKeys; split <;> rfl
@[simp] theorem ensureRoundKeys_cmd : s.ensureRoundKeys.cmd = s.cmd := by unfold ensureRoundKeys; split <;> rfl
@[simp] theorem ensureRoundKeys_latch : s.ensureRoundKeys.latch = s.latch := by unfold ensureRoundKeys; split <;> rfl
@[simp] theorem ensureRoundKeys_done : s.ensureRoundKeys.done = s.done := by unfold ensureRoundKeys; split <;> rfl
@[simp] theorem ensureRoundKeys_errcode : s.ensureRoundKeys.errcode = s.errcode := by unfold ensureRoundKeys; split <;> rfl
@[simp] theorem ensureRoundKeys_hz : s.ensureRoundKeys.hz = s.hz := by unfold ensureRoundKeys; split <;> rfl
@[simp] theorem ensureRoundKeys_ie : s.ensureRoundKeys.ie = s.ie := by unfold ensureRoundKeys; split <;> rfl
@[simp] theorem ensureRoundKeys_src : s.ensureRoundKeys.src = s.src := by unfold ensureRoundKeys; split <;> rfl
@[simp] theorem ensureRoundKeys_dst : s.ensureRoundKeys.dst = s.dst := by unfold ensureRoundKeys; split <;> rfl
@[simp] theorem ensureRoundKeys_len : s.ensureRoundKeys.len = s.len := by unfold ensureRoundKeys; split <;> rfl
@[simp] theorem ensureRoundKeys_outlen : s.ensureRoundKeys.outlen = s.outlen := by unfold ensureRoundKeys; split <;> rfl
@[simp] theorem ensureRoundKeys_key : s.ensureRoundKeys.key = s.key := by unfold ensureRoundKeys; split <;> rfl
@[simp] theorem ensureRoundKeys_iv : s.ensureRoundKeys.iv = s.iv := by unfold ensureRoundKeys; split <;> rfl
@[simp] theorem ensureRoundKeys_state : s.ensureRoundKeys.state = s.state := by unfold ensureRoundKeys; split <;> rfl
@[simp] theorem ensureRoundKeys_opa : s.ensureRoundKeys.opa = s.opa := by unfold ensureRoundKeys; split <;> rfl
@[simp] theorem ensureRoundKeys_opb : s.ensureRoundKeys.opb = s.opb := by unfold ensureRoundKeys; split <;> rfl
@[simp] theorem ensureRoundKeys_res : s.ensureRoundKeys.res = s.res := by unfold ensureRoundKeys; split <;> rfl
@[simp] theorem ensureRoundKeys_buf : s.ensureRoundKeys.buf = s.buf := by unfold ensureRoundKeys; split <;> rfl
@[simp] theorem ensureRoundKeys_bufDraw : s.ensureRoundKeys.bufDraw = s.bufDraw := by unfold ensureRoundKeys; split <;> rfl
@[simp] theorem ensureRoundKeys_freeReads : s.ensureRoundKeys.freeReads = s.freeReads := by unfold ensureRoundKeys; split <;> rfl
@[simp] theorem ensureRoundKeys_response : s.ensureRoundKeys.response = s.response := by unfold ensureRoundKeys; split <;> rfl
@[simp] theorem ensureRoundKeys_events : s.ensureRoundKeys.events = s.events := by unfold ensureRoundKeys; split <;> rfl
@[simp] theorem ensureRoundKeys_kv : s.ensureRoundKeys.kv = true := by
  unfold ensureRoundKeys; split <;> simp_all

/-- After EnsureRoundKeys the round keys are the expansion of KEY, where KV told the truth before (R511). -/
theorem ensureRoundKeys_rk (h : s.kv = true → s.rk = keyExpansion s.key) : s.ensureRoundKeys.rk = keyExpansion s.key := by
  unfold ensureRoundKeys; split <;> simp_all

/-- With KV = 0 EnsureRoundKeys expands KEY (R522). -/
theorem ensureRoundKeys_of_invalid (h : s.kv = false) : s.ensureRoundKeys = s.expandKey := by
  simp [ensureRoundKeys, h]

/-- With KV = 1 EnsureRoundKeys changes nothing (R522). -/
theorem ensureRoundKeys_of_valid (h : s.kv = true) : s.ensureRoundKeys = s := by
  simp [ensureRoundKeys, h]

end ensureRoundKeys

end Sys2Proof.Machine.State
end

