-- ==== Sys2Proof/Laws/Memory.lean ====
section
/-! SUPPORT. The laws of the data buffer: read after write, writes leave other addresses alone, and every operation keeps
the canonical form. -/

namespace Sys2Proof.Machine

/-- The canonical form, unfolded once. -/
theorem wf_iff (m : Memory) : m.wf = true ↔ m.Pairwise fun c d => c.1 < d.1 := by
  simp [Memory.wf]

/-- Reading a byte after it was stored, or another byte. -/
theorem lookupByte_storeByte (m : Memory) (x : Nat) (v : Byte) (y : Nat) :
    lookupByte (storeByte m x v) y = if y = x then some v else lookupByte m y := by
  induction m with
  | nil => simp [storeByte, lookupByte]
  | cons c m ih =>
    obtain ⟨a, b⟩ := c
    simp only [storeByte]
    split
    · simp [lookupByte]
    · split
      · subst_vars; by_cases h : y = a <;> simp [lookupByte, h]
      · simp only [lookupByte, ih]
        by_cases h : y = a
        · subst h; simp; omega
        · simp [h]

/-- An entry of the list after a store is the stored one or an old one. -/
theorem mem_storeByte {m : Memory} {x : Nat} {v : Byte} {c : Host.Cell} (h : c ∈ storeByte m x v) :
    c = (x, v) ∨ c ∈ m := by
  induction m with
  | nil => simpa [storeByte] using h
  | cons d m ih =>
    obtain ⟨a, b⟩ := d
    simp only [storeByte] at h
    split at h
    · simpa using h
    · split at h
      · rcases List.mem_cons.mp h with h | h
        · exact .inl h
        · exact .inr (List.mem_cons_of_mem _ h)
      · rcases List.mem_cons.mp h with h | h
        · exact .inr (by simp [h])
        · rcases ih h with h | h
          · exact .inl h
          · exact .inr (List.mem_cons_of_mem _ h)

/-- A store keeps the canonical form. -/
theorem storeByte_wf {m : Memory} (h : m.wf = true) (x : Nat) (v : Byte) : (storeByte m x v).wf = true := by
  rw [wf_iff] at *
  induction m with
  | nil => simp [storeByte]
  | cons c m ih =>
    obtain ⟨a, b⟩ := c
    have ⟨ha, hm⟩ := List.pairwise_cons.mp h
    simp only [storeByte]
    split
    · rename_i hx
      refine List.pairwise_cons.mpr ⟨fun d hd => ?_, h⟩
      rcases List.mem_cons.mp hd with rfl | hd
      · exact hx
      · exact lt_trans hx (ha d hd)
    · split
      · subst_vars; exact List.pairwise_cons.mpr ⟨ha, hm⟩
      · refine List.pairwise_cons.mpr ⟨fun d hd => ?_, ih hm⟩
        rcases mem_storeByte hd with rfl | hd
        · simp; omega
        · exact ha d hd

/-- Reading a byte after a byte sequence was stored: inside it the byte of the sequence, elsewhere the old byte. -/
theorem lookupByte_storeBytes (m : Memory) (x : Nat) (vs : List Byte) (y : Nat) :
    lookupByte (storeBytes m x vs) y =
      if x ≤ y ∧ y < x + vs.length then vs[y - x]? else lookupByte m y := by
  induction vs generalizing m x with
  | nil => simp [storeBytes]
  | cons v vs ih =>
    simp only [storeBytes, ih, lookupByte_storeByte, List.length_cons]
    by_cases h : x + 1 ≤ y ∧ y < x + 1 + vs.length
    · have h' : x ≤ y ∧ y < x + (vs.length + 1) := by omega
      have e : y - x = (y - (x + 1)) + 1 := by omega
      rw [if_pos h, if_pos h', e, List.getElem?_cons_succ]
    · rw [if_neg h]
      by_cases hy : y = x
      · subst hy; simp
      · rw [if_neg hy, if_neg (by omega)]

/-- An entry of the list after a byte sequence was stored is an old one or has an address inside the sequence. -/
theorem mem_storeBytes {m : Memory} {x : Nat} {vs : List Byte} {c : Host.Cell} (h : c ∈ storeBytes m x vs) :
    (x ≤ c.1 ∧ c.1 < x + vs.length) ∨ c ∈ m := by
  induction vs generalizing m x with
  | nil => exact .inr h
  | cons v vs ih =>
    rcases ih h with h | h
    · exact .inl (by simp; omega)
    · rcases mem_storeByte h with rfl | h
      · exact .inl (by simp)
      · exact .inr h

/-- Storing a byte sequence keeps the canonical form. -/
theorem storeBytes_wf {m : Memory} (h : m.wf = true) (x : Nat) (vs : List Byte) : (storeBytes m x vs).wf = true := by
  induction vs generalizing m x with
  | nil => exact h
  | cons v vs ih => exact ih (storeByte_wf h x v) _

namespace State

variable (s : State)

/-- All that a buffer write does to a read of one byte. -/
theorem bufByte_memWrite (x : Nat) (vs : List Byte) (a : Nat) :
    (s.memWrite x vs).bufByte a =
      if x ≤ a ∧ a < x + vs.length then vs.getD (a - x) 0 else s.bufByte a := by
  unfold bufByte
  simp only [memWrite_buf, memWrite_bufDraw, lookupByte_storeBytes]
  by_cases h : x ≤ a ∧ a < x + vs.length
  · have : a - x < vs.length := by omega
    simp [h, List.getD, List.getElem?_eq_getElem this]
  · simp [h]

/-- A byte of BUF depends on the list and the draw alone. -/
theorem bufByte_congr {s t : State} (h : s.buf = t.buf) (h' : s.bufDraw = t.bufDraw) (a : Nat) :
    s.bufByte a = t.bufByte a := by unfold bufByte; rw [h, h']

@[simp] theorem length_memRead (a n : Nat) : (s.memRead a n).length = n := by simp [memRead]

/-- Byte k of a buffer read. -/
theorem getD_memRead (a n k : Nat) (h : k < n) : (s.memRead a n).getD k 0 = s.bufByte (a + k) := by
  simp [memRead, List.getD, h]

/-- A buffer read depends on the bytes of its region alone. -/
theorem memRead_congr {s t : State} {a n : Nat} (h : ∀ x, a ≤ x → x < a + n → s.bufByte x = t.bufByte x) :
    s.memRead a n = t.memRead a n := by
  refine List.map_congr_left fun i hi => ?_
  have := List.mem_range.mp hi
  exact h _ (by omega) (by omega)

/-- Reading back the bytes just written. -/
theorem memRead_of_bytes {a : Nat} {vs : List Byte} (h : ∀ k, k < vs.length → s.bufByte (a + k) = vs.getD k 0) :
    s.memRead a vs.length = vs := by
  refine List.ext_getElem (by simp) fun k hk hk' => ?_
  simp only [memRead, List.getElem_map, List.getElem_range]
  rw [h k hk']; simp [List.getD, hk']

/-- A buffer write keeps the canonical form. -/
theorem memWrite_wf (h : s.buf.wf = true) (x : Nat) (vs : List Byte) : (s.memWrite x vs).buf.wf = true :=
  storeBytes_wf h x vs

/-- The buffer's list after reset is in canonical form. -/
theorem reset_buf_wf : State.reset.buf.wf = true := rfl

/-- All that a read of one byte sees of a state whose list had a byte sequence stored into it. -/
theorem bufByte_of_storeBytes {s t : State} {x : Nat} {vs : List Byte} (h : t.buf = storeBytes s.buf x vs)
    (h' : t.bufDraw = s.bufDraw) (a : Nat) :
    t.bufByte a = if x ≤ a ∧ a < x + vs.length then vs.getD (a - x) 0 else s.bufByte a := by
  rw [bufByte_congr (t := s.memWrite x vs) (by simp [h]) (by simp [h']), bufByte_memWrite]

/-- The writes of a command stay in the buffer when their region does. -/
theorem memWrite_mem {x : Nat} {vs : List Byte} {n : Nat} (hs : ∀ c ∈ s.buf, c.1 < n) (h : x + vs.length ≤ n) :
    ∀ c ∈ (s.memWrite x vs).buf, c.1 < n := by
  intro c hc
  rcases mem_storeBytes hc with h' | h'
  · omega
  · exact hs c h'

end State

end Sys2Proof.Machine
end

