-- ==== Sys2Proof/Laws/Commands.lean ====
section
/-! SUPPORT. One lemma per shared operation of the commands, saying once what it does: the errors, the round commands, the
results of the block and chaining commands, the checks and the core's turn. -/

namespace Sys2Proof.Machine

namespace State

variable (s : State)

/-! ### How a command ends -/

theorem succeed_eq : s.succeed = .next (s.complete none) := rfl

theorem raiseError_eq (e : CmdError) : s.raiseError e = .next (s.complete (some e)) := rfl

theorem raiseBuffer_eq (e : CmdError) : s.raiseBuffer e = .next ((s.setOutlen 0).complete (some e)) := rfl

/-- The two ways a command on STATE with a round number ends. -/
theorem roundCommand_cases (rnd : BitVec 4) (f : Block → RoundKeys → Fin 11 → Block) :
    (10 < rnd.toNat ∧ s.roundCommand rnd f = .next (s.complete (some .illegalCommand))) ∨
    ∃ k : Fin 11, k.val = rnd.toNat ∧ s.roundCommand rnd f =
      .next ((s.ensureRoundKeys.setState (f s.state s.ensureRoundKeys.rk k)).complete none) := by
  unfold roundCommand roundIndex
  by_cases h : rnd.toNat ≤ 10
  · exact .inr ⟨⟨rnd.toNat, by omega⟩, rfl, by simp [h, succeed]⟩
  · exact .inl ⟨by omega, by simp [h, raiseError]⟩

/-! ### The results of the block and chaining commands -/

section putBlock

variable (B : Block)

@[simp] theorem putBlock_config : (s.putBlock B).config = s.config := rfl
@[simp] theorem putBlock_cmd : (s.putBlock B).cmd = s.cmd := rfl
@[simp] theorem putBlock_latch : (s.putBlock B).latch = s.latch := rfl
@[simp] theorem putBlock_done : (s.putBlock B).done = s.done := rfl
@[simp] theorem putBlock_errcode : (s.putBlock B).errcode = s.errcode := rfl
@[simp] theorem putBlock_kv : (s.putBlock B).kv = s.kv := rfl
@[simp] theorem putBlock_hz : (s.putBlock B).hz = s.hz := rfl
@[simp] theorem putBlock_ie : (s.putBlock B).ie = s.ie := rfl
@[simp] theorem putBlock_src : (s.putBlock B).src = s.src := rfl
@[simp] theorem putBlock_dst : (s.putBlock B).dst = s.dst := rfl
@[simp] theorem putBlock_len : (s.putBlock B).len = s.len := rfl
@[simp] theorem putBlock_outlen : (s.putBlock B).outlen = 16 := rfl
@[simp] theorem putBlock_key : (s.putBlock B).key = s.key := rfl
@[simp] theorem putBlock_iv : (s.putBlock B).iv = s.iv := rfl
@[simp] theorem putBlock_state : (s.putBlock B).state = B := rfl
@[simp] theorem putBlock_opa : (s.putBlock B).opa = s.opa := rfl
@[simp] theorem putBlock_opb : (s.putBlock B).opb = s.opb := rfl
@[simp] theorem putBlock_res : (s.putBlock B).res = s.res := rfl
@[simp] theorem putBlock_rk : (s.putBlock B).rk = s.rk := rfl
@[simp] theorem putBlock_buf : (s.putBlock B).buf = storeBytes s.buf s.dstAddr B.toList := rfl
@[simp] theorem putBlock_bufDraw : (s.putBlock B).bufDraw = s.bufDraw := rfl
@[simp] theorem putBlock_freeReads : (s.putBlock B).freeReads = s.freeReads := rfl
@[simp] theorem putBlock_response : (s.putBlock B).response = s.response := rfl
@[simp] theorem putBlock_events : (s.putBlock B).events = s.events := rfl

end putBlock

section putChain

variable (d : List Byte)

@[simp] theorem putChain_config : (s.putChain d).config = s.config := by simp [putChain]
@[simp] theorem putChain_cmd : (s.putChain d).cmd = s.cmd := by simp [putChain]
@[simp] theorem putChain_latch : (s.putChain d).latch = s.latch := by simp [putChain]
@[simp] theorem putChain_done : (s.putChain d).done = s.done := by simp [putChain]
@[simp] theorem putChain_errcode : (s.putChain d).errcode = s.errcode := by simp [putChain]
@[simp] theorem putChain_kv : (s.putChain d).kv = s.kv := by simp [putChain]
@[simp] theorem putChain_hz : (s.putChain d).hz = s.hz := by simp [putChain]
@[simp] theorem putChain_ie : (s.putChain d).ie = s.ie := by simp [putChain]
@[simp] theorem putChain_src : (s.putChain d).src = s.src := by simp [putChain]
@[simp] theorem putChain_dst : (s.putChain d).dst = s.dst := by simp [putChain]
@[simp] theorem putChain_len : (s.putChain d).len = s.len := by simp [putChain]
@[simp] theorem putChain_outlen : (s.putChain d).outlen = s.outlen := by simp [putChain]
@[simp] theorem putChain_key : (s.putChain d).key = s.key := by simp [putChain]
@[simp] theorem putChain_iv : (s.putChain d).iv = s.iv := by simp [putChain]
@[simp] theorem putChain_state : (s.putChain d).state = blockAt d (d.length - 16) := by simp [putChain]
@[simp] theorem putChain_opa : (s.putChain d).opa = s.opa := by simp [putChain]
@[simp] theorem putChain_opb : (s.putChain d).opb = s.opb := by simp [putChain]
@[simp] theorem putChain_res : (s.putChain d).res = s.res := by simp [putChain]
@[simp] theorem putChain_rk : (s.putChain d).rk = s.rk := by simp [putChain]
@[simp] theorem putChain_buf : (s.putChain d).buf = storeBytes s.buf s.dstAddr d := by simp [putChain]
@[simp] theorem putChain_bufDraw : (s.putChain d).bufDraw = s.bufDraw := by simp [putChain]
@[simp] theorem putChain_freeReads : (s.putChain d).freeReads = s.freeReads := by simp [putChain]
@[simp] theorem putChain_response : (s.putChain d).response = s.response := by simp [putChain]
@[simp] theorem putChain_events : (s.putChain d).events = s.events := by simp [putChain]

end putChain

/-- What the result of a block command reads as: its 16 bytes at DST, every other byte as before. -/
theorem bufByte_putBlock (B : Block) (a : Nat) :
    (s.putBlock B).bufByte a = if s.dstAddr ≤ a ∧ a < s.dstAddr + 16 then B.toList.getD (a - s.dstAddr) 0 else s.bufByte a := by
  have e : (s.putBlock B).bufByte a = (s.memWrite s.dstAddr B.toList).bufByte a := rfl
  rw [e, bufByte_memWrite]; simp

/-- What the result of a chaining command reads as: its bytes at DST, every other byte as before. -/
theorem bufByte_putChain (d : List Byte) (a : Nat) :
    (s.putChain d).bufByte a =
      if s.dstAddr ≤ a ∧ a < s.dstAddr + d.length then d.getD (a - s.dstAddr) 0 else s.bufByte a := by
  rw [bufByte_congr (t := s.memWrite s.dstAddr d) (by simp) (by simp), bufByte_memWrite]

@[simp] theorem length_cbcCiphertext : s.cbcCiphertext.length = paddedLength s.length := by
  have chain : ∀ (rk : RoundKeys) (p : Block) (qs : List Block), (chainEncrypt rk p qs).length = qs.length := by
    intro rk p qs
    induction qs generalizing p with
    | nil => rfl
    | cons q qs ih => simp [chainEncrypt, ih]
  simp only [cbcCiphertext, cbcEncrypt, length_bytesOf, chain, length_blocksOf, padData, padBytes, padCount,
    paddedLength, List.length_append, List.length_replicate, length_memRead]
  omega

theorem length_cbcPlaintext (h : s.length % 16 = 0) : s.cbcPlaintext.length = s.length := by
  have chain : ∀ (rk : RoundKeys) (p : Block) (qs : List Block), (chainDecrypt rk p qs).length = qs.length := by
    intro rk p qs
    induction qs generalizing p with
    | nil => rfl
    | cons q qs ih => simp [chainDecrypt, ih]
  simp only [cbcPlaintext, cbcDecryptRaw, length_bytesOf, chain, length_blocksOf, length_memRead]
  omega

/-- EnsureRoundKeys as one record update: RK and KV. -/
theorem ensureRoundKeys_eq : s.ensureRoundKeys = { s with rk := s.ensureRoundKeys.rk, kv := true } := by
  unfold ensureRoundKeys
  split
  · rename_i hk; rw [← hk]
  · rfl

/-- All that ENCBLK and DECBLK write, as one record update. -/
theorem putBlock_eq (B : Block) :
    s.ensureRoundKeys.putBlock B =
      { s with state := B, outlen := 16, rk := s.ensureRoundKeys.rk, kv := true,
               buf := storeBytes s.buf s.dstAddr B.toList } := by
  rw [ensureRoundKeys_eq s]; rfl

/-- All that CBCENC and CBCDEC write but OUTLEN, as one record update. -/
theorem putChain_eq (d : List Byte) :
    s.ensureRoundKeys.putChain d =
      { s with state := blockAt d (d.length - 16), rk := s.ensureRoundKeys.rk, kv := true,
               buf := storeBytes s.buf s.dstAddr d } := by
  generalize hB : blockAt d (d.length - 16) = B
  rw [ensureRoundKeys_eq s, putChain, hB]; rfl

/-! ### The checks -/

/-- The region checks pass exactly when both regions lie in the buffer and do not partly overlap (R201, R202). -/
theorem regionError_eq_none (n m : Nat) :
    s.regionError n m = none ↔ s.srcAddr + n ≤ s.config.bufSize ∧ s.dstAddr + m ≤ s.config.bufSize ∧
      badOverlap s.srcAddr n s.dstAddr m = false := by
  unfold regionError
  by_cases h1 : s.inRange s.srcAddr n <;> by_cases h2 : s.inRange s.dstAddr m <;>
    cases h3 : badOverlap s.srcAddr n s.dstAddr m <;> simp_all [inRange]

/-- A region check reports nothing but Range and Overlap. -/
theorem regionError_cases (n m : Nat) :
    s.regionError n m = none ∨ s.regionError n m = some .range ∨ s.regionError n m = some .overlap := by
  unfold regionError; split_ifs <;> simp

/-- The checks of ENCBLK and DECBLK pass on one block in legal regions (R560, R561). -/
theorem blockError_eq_none : s.blockError = none ↔ s.length = 16 ∧ s.regionError 16 16 = none := by
  unfold blockError; split <;> simp_all

/-- The checks of KEYLD pass on 16 bytes inside the buffer (R521). -/
theorem keyldError_eq_none : s.keyldError = none ↔ s.length = 16 ∧ s.srcAddr + 16 ≤ s.config.bufSize := by
  unfold keyldError inRange; split_ifs <;> simp_all

/-- The checks of CBCDEC before the decryption pass on whole blocks in legal regions (R661). -/
theorem cbcdecError_eq_none :
    s.cbcdecError = none ↔ s.length ≠ 0 ∧ s.length % 16 = 0 ∧ s.regionError s.length s.length = none := by
  unfold cbcdecError; split <;> simp_all; omega

end State

/-! ### The core's turn -/

theorem coreStep_idle {s : State} (h : s.latch = none) : coreStep s = .next s := by simp [coreStep, h]

theorem coreStep_running {s : State} {v : Word} (h : s.latch = some v) : coreStep s = executeWord v s := by
  simp [coreStep, h]

theorem executeWord_ok {v : Word} {i : Instr} (h : decode v = .ok i) (s : State) : executeWord v s = exec i s := by
  simp [executeWord, h]

theorem executeWord_error {v : Word} {e : DecodeError} (h : decode v = .error e) (s : State) :
    executeWord v s = .next (s.complete (some .illegalCommand)) := by
  simp [executeWord, h, State.raiseError]

end Sys2Proof.Machine
end

