-- ==== Sys2Proof/Laws/Field.lean ====
section
/-! SUPPORT. GF(2^8) arithmetic is linear over XOR, the base of every law of the mixing transformations. -/

namespace Sys2Proof.Machine

theorem xor_left_comm (a b c : Byte) : a ^^^ (b ^^^ c) = b ^^^ (a ^^^ c) := by
  rw [← BitVec.xor_assoc, BitVec.xor_comm a b, BitVec.xor_assoc]

theorem xor_cancel_left (a b : Byte) : a ^^^ (a ^^^ b) = b := by
  rw [← BitVec.xor_assoc, BitVec.xor_self, BitVec.zero_xor]

/-- GFDouble as a shift and a conditional reduction. -/
theorem gfDouble_eq (a : Byte) : gfDouble a = (a <<< 1) ^^^ (if a.getLsbD 7 then 0x1B else 0) := by
  unfold gfDouble; split <;> simp

theorem gfDouble_xor (a b : Byte) : gfDouble (a ^^^ b) = gfDouble a ^^^ gfDouble b := by
  simp only [gfDouble_eq, BitVec.getLsbD_xor, BitVec.shiftLeft_xor_distrib]
  cases a.getLsbD 7 <;> cases b.getLsbD 7 <;>
    simp [BitVec.xor_assoc, BitVec.xor_comm, xor_left_comm]

@[simp] theorem gfDouble_zero : gfDouble 0#8 = 0#8 := by decide

/-- The loop of GFMul is linear in the multiplicand and the accumulator together. -/
theorem gfMulLoop_xor_left (n : Nat) (a a' b c c' : Byte) :
    gfMulLoop n (a ^^^ a') b (c ^^^ c') = gfMulLoop n a b c ^^^ gfMulLoop n a' b c' := by
  induction n generalizing a a' b c c' with
  | zero => rfl
  | succ n ih =>
    simp only [gfMulLoop, gfDouble_xor]
    split
    · rw [← ih]; congr 1; ac_rfl
    · exact ih _ _ _ _ _

/-- The loop of GFMul is linear in the multiplier and the accumulator together. -/
theorem gfMulLoop_xor_right (n : Nat) (a b b' c c' : Byte) :
    gfMulLoop n a (b ^^^ b') (c ^^^ c') = gfMulLoop n a b c ^^^ gfMulLoop n a b' c' := by
  induction n generalizing a b b' c c' with
  | zero => rfl
  | succ n ih =>
    simp only [gfMulLoop, BitVec.getLsbD_xor, BitVec.ushiftRight_xor_distrib]
    rw [← ih]
    congr 1
    cases b.getLsbD 0 <;> cases b'.getLsbD 0 <;>
      simp [BitVec.xor_assoc, BitVec.xor_comm, xor_left_comm]

theorem gfMul_xor_left (a a' b : Byte) : gfMul (a ^^^ a') b = gfMul a b ^^^ gfMul a' b := by
  simpa [gfMul] using gfMulLoop_xor_left 8 a a' b 0 0

/-- Doubling the multiplicand doubles the product. -/
theorem gfMulLoop_double (n : Nat) (a b c : Byte) :
    gfMulLoop n (gfDouble a) b (gfDouble c) = gfDouble (gfMulLoop n a b c) := by
  induction n generalizing a b c with
  | zero => rfl
  | succ n ih =>
    simp only [gfMulLoop]
    split
    · rw [← gfDouble_xor, ih]
    · exact ih _ _ _

theorem gfMul_double_left (a b : Byte) : gfMul (gfDouble a) b = gfDouble (gfMul a b) := by
  simpa [gfMul] using gfMulLoop_double 8 a b 0

@[simp] theorem gfMul_zero_left (b : Byte) : gfMul 0#8 b = 0#8 := by
  have := gfMul_xor_left b b b
  simpa using this

end Sys2Proof.Machine
end

