-- ==== Sys2Proof/Laws/PerInstr.lean ====
section
/-! SUPPORT. The families of statements made once per command: the fields of its command word (30_encoding.md R300). -/

namespace Sys2Proof.Laws.EncodedFields

/-- The three fields of a command's word are RSV = 0, its RND and its OPC, and RND is legal where the command is well
formed (R300, R301). -/
def Statement (i : Instr) : Prop :=
  rsvField (encode i) = 0 ∧ rndField (encode i) = roundOf i ∧ opcField (encode i) = opcodeOf i ∧
    (i.wellFormed = true → legalRound (rndField (encode i)) = true)

theorem nop : Statement .nop := by unfold Statement; decide
theorem keyld : Statement .keyld := by unfold Statement; decide
theorem keyexp : Statement .keyexp := by unfold Statement; decide
theorem encblk : Statement .encblk := by unfold Statement; decide
theorem decblk : Statement .decblk := by unfold Statement; decide
theorem gfmul : Statement .gfmul := by unfold Statement; decide
theorem gfdbl : Statement .gfdbl := by unfold Statement; decide
theorem sbox : Statement .sbox := by unfold Statement; decide
theorem invsbox : Statement .invsbox := by unfold Statement; decide
theorem subbytes : Statement .subbytes := by unfold Statement; decide
theorem invsubbytes : Statement .invsubbytes := by unfold Statement; decide
theorem shiftrows : Statement .shiftrows := by unfold Statement; decide
theorem invshiftrows : Statement .invshiftrows := by unfold Statement; decide
theorem mixcolumns : Statement .mixcolumns := by unfold Statement; decide
theorem invmixcolumns : Statement .invmixcolumns := by unfold Statement; decide
theorem addroundkey (rnd : BitVec 4) : Statement (.addroundkey rnd) := by unfold Statement; revert rnd; decide
theorem encround (rnd : BitVec 4) : Statement (.encround rnd) := by unfold Statement; revert rnd; decide
theorem decround (rnd : BitVec 4) : Statement (.decround rnd) := by unfold Statement; revert rnd; decide
theorem pad : Statement .pad := by unfold Statement; decide
theorem unpad : Statement .unpad := by unfold Statement; decide
theorem cbcenc : Statement .cbcenc := by unfold Statement; decide
theorem cbcdec : Statement .cbcdec := by unfold Statement; decide

end Sys2Proof.Laws.EncodedFields
end

