-- ==== Sys2Proof/Laws/Step.lean ====
section
/-! SUPPORT. What a command and a step can do, said once: what every completion leaves, the cases of a bus access, and the
cases of a step. -/

namespace Sys2Proof.Machine

/-- What every completed command leaves, whatever its error: no command in flight, DONE set, and the registers no command
writes (R302, R702). -/
structure Completed (s t : State) : Prop where
  config : t.config = s.config
  cmd : t.cmd = s.cmd
  latch : t.latch = none
  done : t.done = true
  hz : t.hz = s.hz
  ie : t.ie = s.ie
  src : t.src = s.src
  dst : t.dst = s.dst
  len : t.len = s.len
  iv : t.iv = s.iv
  opa : t.opa = s.opa
  opb : t.opb = s.opb
  bufDraw : t.bufDraw = s.bufDraw
  freeReads : t.freeReads = s.freeReads
  response : t.response = s.response
  events : t.events = s.events

theorem roundCommand_completed (s : State) (rnd : BitVec 4) (f : Block → RoundKeys → Fin 11 → Block) :
    ∃ t, s.roundCommand rnd f = .next t ∧ Completed s t := by
  rcases s.roundCommand_cases rnd f with ⟨_, h⟩ | ⟨j, _, h⟩ <;> rw [h] <;> exact ⟨_, rfl, by constructor <;> simp⟩

/-- Every command completes, on every state. -/
theorem exec_completed (i : Instr) (s : State) : ∃ t, exec i s = .next t ∧ Completed s t := by
  cases i <;> simp only [exec]
  case addroundkey k => exact roundCommand_completed s k _
  case encround k => exact roundCommand_completed s k _
  case decround k => exact roundCommand_completed s k _
  all_goals simp only [execNop, execKeyld, execKeyexp, execEncblk, execDecblk, execGfmul, execGfdbl, execSbox, execInvsbox,
    execSubbytes, execInvsubbytes, execShiftrows, execInvshiftrows, execMixcolumns, execInvmixcolumns, execPad, execUnpad,
    execCbcenc, execCbcdec, State.succeed, State.raiseError, State.raiseBuffer]
  all_goals repeat' split
  all_goals exact ⟨_, rfl, by constructor <;> simp⟩

/-- Every word completes, on every state. -/
theorem executeWord_completed (v : Word) (s : State) : ∃ t, executeWord v s = .next t ∧ Completed s t := by
  cases h : decode v with
  | error e => rw [executeWord_error h]; exact ⟨_, rfl, by constructor <;> simp⟩
  | ok i => rw [executeWord_ok h]; exact exec_completed i s

theorem completed_of_executeWord {v : Word} {s t : State} (h : executeWord v s = .next t) : Completed s t := by
  obtain ⟨t', ht', hc⟩ := executeWord_completed v s
  rw [h] at ht'; injection ht' with ht'; exact ht' ▸ hc

theorem busy_iff (s : State) : s.busy = true ↔ s.latch ≠ none := by
  simp [State.busy, Option.isSome_iff_ne_none]

/-- The three ways a read goes (R211, R213, R912). -/
theorem busRead_cases (s : State) (off : Offset) :
    (off.toNat % 4 ≠ 0 ∧ s.busRead off = s.respond .err) ∨
    (off.toNat % 4 = 0 ∧ s.latch ≠ none ∧
      s.busRead off = s.drawRead.respond (.data (s.busyRead s.freeReads (s.target off)))) ∨
    (off.toNat % 4 = 0 ∧ s.latch = none ∧ s.busRead off = s.respond (.data (s.idleRead (s.target off)))) := by
  unfold State.busRead aligned
  by_cases h : off.toNat % 4 = 0
  · by_cases hb : s.busy = true
    · exact .inr (.inl ⟨h, (busy_iff s).mp hb, by simp [h, hb]⟩)
    · exact .inr (.inr ⟨h, by simpa [State.busy] using hb, by simp [h, hb]⟩)
  · exact .inl ⟨h, by simp [h]⟩

/-- The three ways a write goes (R211, R213, R911). -/
theorem busWrite_cases (s : State) (off : Offset) (v : Word) :
    (off.toNat % 4 ≠ 0 ∧ s.busWrite off v = s.respond .err) ∨
    (off.toNat % 4 = 0 ∧ s.latch ≠ none ∧ s.busWrite off v = s.droppedWrite.respond .ok) ∨
    (off.toNat % 4 = 0 ∧ s.latch = none ∧ s.busWrite off v = (s.idleWrite v (s.target off)).respond .ok) := by
  unfold State.busWrite aligned
  by_cases h : off.toNat % 4 = 0
  · by_cases hb : s.busy = true
    · exact .inr (.inl ⟨h, (busy_iff s).mp hb, by simp [h, hb]⟩)
    · exact .inr (.inr ⟨h, by simpa [State.busy] using hb, by simp [h, hb]⟩)
  · exact .inl ⟨h, by simp [h]⟩

/-- All that a step can be (R841): the core's turn with no command in flight or with one, a reset, a read, a write. -/
theorem step_cases {s t : State} (h : step s = .next t) :
    (∃ es, (s.events = [] ∧ es = [] ∨ s.events = .core :: es) ∧ s.latch = none ∧ t = { s with events := es }) ∨
    (∃ es v, (s.events = [] ∧ es = [] ∨ s.events = .core :: es) ∧ s.latch = some v ∧
      executeWord v { s with events := es } = .next t) ∨
    (∃ es, s.events = .reset :: es ∧ t = State.resetStep { s with events := es }) ∨
    (∃ es off, s.events = .bus (.read off) :: es ∧ t = State.busRead { s with events := es } off) ∨
    (∃ es off v, s.events = .bus (.write off v) :: es ∧ t = State.busWrite { s with events := es } off v) := by
  unfold step at h
  split at h
  · rename_i he
    have e : ({ s with events := [] } : State) = s := by rw [← he]
    rcases Option.eq_none_or_eq_some s.latch with hl | ⟨v, hl⟩
    · rw [coreStep_idle hl] at h; injection h with h
      exact .inl ⟨[], .inl ⟨he, rfl⟩, hl, by rw [e, h]⟩
    · rw [coreStep_running hl] at h
      exact .inr (.inl ⟨[], v, .inl ⟨he, rfl⟩, hl, by rw [e]; exact h⟩)
  · rename_i e es he
    cases e with
    | core =>
      simp only [eventStep] at h
      rcases Option.eq_none_or_eq_some s.latch with hl | ⟨v, hl⟩
      · rw [coreStep_idle (s := { s with events := es }) hl] at h; injection h with h
        exact .inl ⟨es, .inr he, hl, h.symm⟩
      · rw [coreStep_running (s := { s with events := es }) hl] at h
        exact .inr (.inl ⟨es, v, .inr he, hl, h⟩)
    | reset => injection h with h; exact .inr (.inr (.inl ⟨es, he, h.symm⟩))
    | bus r =>
      injection h with h
      cases r with
      | read off => exact .inr (.inr (.inr (.inl ⟨es, off, he, h.symm⟩)))
      | write off v => exact .inr (.inr (.inr (.inr ⟨es, off, v, he, h.symm⟩)))

end Sys2Proof.Machine
end

