-- ==== Sys2Proof/Tests/Slice0.lean ====
section
/-! SUPPORT. Tests: ill-formed commands, decoding, one step per test with values from 95_test_vectors.md, and a witness
that meets the hypotheses of each statement that has some. -/

namespace Sys2Proof.Machine.Tests

/-! ## Ill-formed commands are refused (R301) -/

theorem test_addroundkey_11_illformed : (Instr.addroundkey 11).wellFormed = false := by decide
theorem test_encround_11_illformed : (Instr.encround 11).wellFormed = false := by decide
theorem test_decround_15_illformed : (Instr.decround 15).wellFormed = false := by decide
theorem test_round_10_wellformed :
    (Instr.addroundkey 10).wellFormed = true ∧ (Instr.encround 10).wellFormed = true ∧
      (Instr.decround 0).wellFormed = true := by decide

/-! ## Decoding: the words of R303 written out bit by bit, RSV 31:12, RND 11:8, OPC 7:0 (R300) -/

theorem test_decode_control :
    decode 0b00000000000000000000000000000000 = .ok .nop := by decide

theorem test_decode_key :
    decode 0b00000000000000000000000000000001 = .ok .keyld ∧
    decode 0b00000000000000000000000000000010 = .ok .keyexp := by decide

theorem test_decode_block :
    decode 0b00000000000000000000000000000011 = .ok .encblk ∧
    decode 0b00000000000000000000000000000100 = .ok .decblk := by decide

theorem test_decode_byte :
    decode 0b00000000000000000000000000001000 = .ok .gfmul ∧
    decode 0b00000000000000000000000000001001 = .ok .gfdbl ∧
    decode 0b00000000000000000000000000001010 = .ok .sbox ∧
    decode 0b00000000000000000000000000001011 = .ok .invsbox := by decide

theorem test_decode_state :
    decode 0b00000000000000000000000000010000 = .ok .subbytes ∧
    decode 0b00000000000000000000000000010001 = .ok .invsubbytes ∧
    decode 0b00000000000000000000000000010010 = .ok .shiftrows ∧
    decode 0b00000000000000000000000000010011 = .ok .invshiftrows ∧
    decode 0b00000000000000000000000000010100 = .ok .mixcolumns ∧
    decode 0b00000000000000000000000000010101 = .ok .invmixcolumns := by decide

theorem test_decode_pad :
    decode 0b00000000000000000000000000100000 = .ok .pad ∧
    decode 0b00000000000000000000000000100001 = .ok .unpad := by decide

theorem test_decode_cbc :
    decode 0b00000000000000000000000000110000 = .ok .cbcenc ∧
    decode 0b00000000000000000000000000110001 = .ok .cbcdec := by decide

theorem test_decode_rounds :
    decode 0b00000000000000000000000000010110 = .ok (.addroundkey 0) ∧
    decode 0b00000000000000000000101000010110 = .ok (.addroundkey 10) ∧
    decode 0b00000000000000000000010100011000 = .ok (.encround 5) ∧
    decode 0b00000000000000000000100100011001 = .ok (.decround 9) := by decide

/-- The illegal words of V60, by the kinds of R305. -/
theorem test_decode_illegal :
    decode 0x00001003 = .error .reservedBits ∧ decode 0x80000000 = .error .reservedBits ∧
    decode 0x00000005 = .error .unknownOpcode ∧ decode 0x000000FF = .error .unknownOpcode ∧
    decode 0x00000105 = .error .unknownOpcode ∧ decode 0x00000103 = .error .roundNotZero ∧
    decode 0x00000B16 = .error .roundOutOfRange ∧ decode 0x00000F18 = .error .roundOutOfRange := by decide

theorem test_decodeTableWord :
    decodeTableWord 32 0x00000518 = some (.encround 5) ∧ decodeTableWord 32 0x00000B16 = none := by decide

/-! ## The states the tests start from -/

/-- What a step answers meets a test. -/
def ends (o : Out) (p : State → Bool) : Bool :=
  match o with
  | .next t => p t
  | .fault _ => false
  | .refused _ => false

/-- A state after reset with KEY = I (V20). -/
def keyed : State := { State.reset with key := sampleKey }

/-- KEY = I, the block X at BUF[0..15], SRC 0, DST 16, LEN 16 (V30). -/
def blockReady : State :=
  { keyed with buf := storeBytes [] 0 samplePlain.toList, src := 0, dst := 16, len := 16 }

/-- KEY = I, its ciphertext at BUF[0..15], SRC 0, DST 16, LEN 16 (V30). -/
def cipherReady : State :=
  { keyed with buf := storeBytes [] 0 sampleCipher.toList, src := 0, dst := 16, len := 16 }

/-- KEY = I, the IV of V50, "Hello" at BUF[0..4], SRC 0, DST 0x40, LEN 5 (P2). -/
def helloReady : State :=
  { keyed with iv := sampleIv, buf := storeBytes [] 0 sampleText, src := 0, dst := 0x40, len := 5 }

/-- KEY = I, the IV of V50, the ciphertext of "Hello" at BUF[0x40..0x4F], in place, LEN 16 (P2). -/
def chainReady : State :=
  { keyed with iv := sampleIv, buf := storeBytes [] 0x40 sampleChain, src := 0x40, dst := 0x40, len := 16 }

/-- `chainReady` with byte 15 of IV 0x0B: the last plaintext byte becomes 0x00 (V52 (a)). -/
def chainBroken : State := { chainReady with iv := sampleIv.set 15 0x0B }

/-- An ENCBLK accepted and not yet completed (V63). -/
def running : State := { blockReady with cmd := 0x00000003, latch := some 0x00000003 }

/-- The key expanded, by the rule and not by a number. -/
def expanded : State := { keyed with rk := keyExpansion sampleKey, kv := true }

/-! ## One step per command, values from 95_test_vectors.md -/

/-- V61, and the word runs as the first one after reset. -/
theorem test_nop : ends (step (State.reset.withFetchWord 32 0x00000000)) (fun t => t.status == 0x00000002 && t.cmd == 0) =
    true := by decide

/-- V22 (6): KEY from BUF, KV 0. -/
theorem test_keyld :
    ends (exec .keyld { expanded with buf := storeBytes [] 0x20 samplePlain.toList, src := 0x20, len := 16 })
      (fun t => t.key == samplePlain && !t.kv && t.status == 0x00000002) = true := by decide +kernel

/-- V22 (7), (8). -/
theorem test_keyld_errors :
    ends (exec .keyld { keyed with src := 0x20, len := 15 }) (fun t => t.status == 0x00000106 && t.key == sampleKey) = true ∧
    ends (exec .keyld { keyed with src := 0xFF8, len := 16 }) (fun t => t.status == 0x00000506) = true := by decide

/-- V20, V21a. -/
theorem test_keyexp :
    ends (exec .keyexp keyed) (fun t => t.kv && blockWord t.rk[10] 0 == 0x7F1D1113 && blockWord t.rk[10] 3 == 0xC5302B4D &&
      t.rk[0] == sampleKey && t.status == 0x0000000A) = true := by decide +kernel

/-- V30. -/
theorem test_encblk :
    ends (exec .encblk blockReady) (fun t => t.state == sampleCipher && t.readBlock 16 == sampleCipher &&
      t.outlen == 16 && t.status == 0x0000000A) = true := by decide +kernel

/-- V35, V37, V38, V39, V39b: the check order. -/
theorem test_block_errors :
    ends (exec .encblk { blockReady with len := 15 }) (fun t => t.status == 0x00000106 && t.outlen == 0) = true ∧
    ends (exec .encblk { blockReady with src := 0xFF8 }) (fun t => t.status == 0x00000506) = true ∧
    ends (exec .decblk { blockReady with dst := 0xFF1 }) (fun t => t.status == 0x00000506) = true ∧
    ends (exec .encblk { blockReady with dst := 1 }) (fun t => t.status == 0x00000606) = true ∧
    ends (exec .decblk { blockReady with len := 15, src := 0xFF8 }) (fun t => t.status == 0x00000106) = true := by decide

/-- V30, DECBLK of the result. -/
theorem test_decblk :
    ends (exec .decblk cipherReady) (fun t => t.readBlock 16 == samplePlain && t.outlen == 16) = true := by
  decide +kernel

/-- V11. -/
theorem test_gfmul :
    ends (exec .gfmul { State.reset with opa := 0x57, opb := 0x83 }) (fun t => t.res == 0xC1 && t.opa == 0x57) = true ∧
    ends (exec .gfmul { State.reset with opa := 0x02, opb := 0x87 }) (fun t => t.res == 0x15) = true := by decide

/-- V10. -/
theorem test_gfdbl :
    ends (exec .gfdbl { State.reset with opa := 0xFF }) (fun t => t.res == 0xE5) = true ∧
    ends (exec .gfdbl { State.reset with opa := 0x80 }) (fun t => t.res == 0x1B) = true := by decide

/-- V12. -/
theorem test_sbox : ends (exec .sbox { State.reset with opa := 0xC1 }) (fun t => t.res == 0x78) = true := by decide
theorem test_invsbox : ends (exec .invsbox { State.reset with opa := 0x78 }) (fun t => t.res == 0xC1) = true := by decide

/-- V14 to V19, on I. -/
theorem test_subbytes :
    ends (exec .subbytes { State.reset with state := sampleKey }) (fun t => t.state ==
      #v[0x63, 0x7C, 0x77, 0x7B, 0xF2, 0x6B, 0x6F, 0xC5, 0x30, 0x01, 0x67, 0x2B, 0xFE, 0xD7, 0xAB, 0x76]) = true := by
  decide +kernel
theorem test_invsubbytes :
    ends (exec .invsubbytes { State.reset with state := sampleKey }) (fun t => t.state ==
      #v[0x52, 0x09, 0x6A, 0xD5, 0x30, 0x36, 0xA5, 0x38, 0xBF, 0x40, 0xA3, 0x9E, 0x81, 0xF3, 0xD7, 0xFB]) = true := by
  decide +kernel
theorem test_shiftrows :
    ends (exec .shiftrows { State.reset with state := sampleKey }) (fun t => t.state ==
      #v[0x00, 0x05, 0x0A, 0x0F, 0x04, 0x09, 0x0E, 0x03, 0x08, 0x0D, 0x02, 0x07, 0x0C, 0x01, 0x06, 0x0B]) = true := by
  decide +kernel
theorem test_invshiftrows :
    ends (exec .invshiftrows { State.reset with state := sampleKey }) (fun t => t.state ==
      #v[0x00, 0x0D, 0x0A, 0x07, 0x04, 0x01, 0x0E, 0x0B, 0x08, 0x05, 0x02, 0x0F, 0x0C, 0x09, 0x06, 0x03]) = true := by
  decide +kernel
theorem test_mixcolumns :
    ends (exec .mixcolumns { State.reset with state := samplePlain }) (fun t => t.state ==
      #v[0x22, 0x77, 0x00, 0x55, 0x66, 0x33, 0x44, 0x11, 0xAA, 0xFF, 0x88, 0xDD, 0xEE, 0xBB, 0xCC, 0x99]) = true := by
  decide +kernel
theorem test_invmixcolumns :
    ends (exec .invmixcolumns { State.reset with state := sampleKey }) (fun t => t.state ==
      #v[0x0A, 0x0F, 0x08, 0x0D, 0x0E, 0x0B, 0x0C, 0x09, 0x02, 0x07, 0x00, 0x05, 0x06, 0x03, 0x04, 0x01]) = true := by
  decide +kernel

/-- V19b: ADDROUNDKEY 10, the key expanded first. -/
theorem test_addroundkey :
    ends (exec (.addroundkey 10) { keyed with state := samplePlain }) (fun t => t.kv && t.state ==
      #v[0x13, 0x00, 0x3F, 0x4C, 0xA7, 0xC1, 0x2C, 0x60, 0x7B, 0x9E, 0x0D, 0x30, 0x81, 0xF6, 0xDE, 0x3A]) = true := by
  decide +kernel

/-- V21: ENCROUND 10 of the ENCROUND 9 value. -/
theorem test_encround :
    ends (exec (.encround 10) { keyed with state :=
      #v[0xBD, 0x6E, 0x7C, 0x3D, 0xF2, 0xB5, 0x77, 0x9E, 0x0B, 0x61, 0x21, 0x6E, 0x8B, 0x10, 0xB6, 0x89] })
      (fun t => t.state == sampleCipher) = true := by decide +kernel

/-- V21: DECROUND 1 of the ENCROUND 1 value. -/
theorem test_decround :
    ends (exec (.decround 1) { keyed with state :=
      #v[0x89, 0xD8, 0x10, 0xE8, 0x85, 0x5A, 0xCE, 0x68, 0x2D, 0x18, 0x43, 0xD8, 0xCB, 0x12, 0x8F, 0xE4] })
      (fun t => t.state == #v[0x00, 0x10, 0x20, 0x30, 0x40, 0x50, 0x60, 0x70, 0x80, 0x90, 0xA0, 0xB0, 0xC0, 0xD0, 0xE0, 0xF0]) =
      true := by decide +kernel

/-- V40: LEN 17, and the row that does not fit. -/
theorem test_pad :
    ends (exec .pad { State.reset with src := 0x100, len := 17 }) (fun t => t.outlen == 32 && t.bufByte 0x111 == 0x0F &&
      t.bufByte 0x11F == 0x0F && t.buf.length == 15) = true ∧
    ends (exec .pad { State.reset with src := 0xFF0, len := 16 }) (fun t => t.status == 0x00000506 && t.buf == []) = true := by
  decide

/-- V41: only the last byte is examined; a count above LEN. -/
theorem test_unpad :
    ends (exec .unpad { State.reset with buf := [(0x10F, 0x03)], src := 0x100, len := 16 })
      (fun t => t.outlen == 13 && t.status == 0x00000002) = true ∧
    ends (exec .unpad { State.reset with buf := [(0x102, 0x05)], src := 0x100, len := 3, outlen := 9 })
      (fun t => t.outlen == 0 && t.status == 0x00000206) = true := by decide

/-- V50, LEN 5. -/
theorem test_cbcenc :
    ends (exec .cbcenc helloReady) (fun t => t.memRead 0x40 16 == sampleChain && t.outlen == 16 && t.iv == sampleIv &&
      t.state.toList == sampleChain) = true := by decide +kernel

/-- V53: an overlap, and a length checked before a range. -/
theorem test_cbc_errors :
    ends (exec .cbcenc { helloReady with dst := 4 }) (fun t => t.status == 0x00000606) = true ∧
    ends (exec .cbcdec { helloReady with len := 17, src := 0xFFF0 }) (fun t => t.status == 0x00000306) = true := by decide

/-- V51, LEN 5, in place (P2). -/
theorem test_cbcdec :
    ends (exec .cbcdec chainReady) (fun t => t.memRead 0x40 16 == sampleText ++ List.replicate 11 0x0B && t.outlen == 5) =
      true := by decide +kernel

/-- V52 (a): the Padding error keeps the decryption and the expansion. -/
theorem test_cbcdec_padding :
    ends (exec .cbcdec chainBroken) (fun t => t.status == 0x0000020E && t.outlen == 0 &&
      t.memRead 0x40 16 == sampleText ++ List.replicate 10 0x0B ++ [0x00] && t.kv) = true := by decide +kernel

/-! ## The bus, one step per test -/

/-- The machine with one host request to come. -/
def asking (s : State) (r : BusRequest) : State := { s with events := [.bus r] }

/-- V13. -/
theorem test_opa_width :
    ends (step (asking State.reset (.write 0x050 0x157))) (fun t => t.opa == 0x57 && t.response == some .ok) = true := by
  decide

/-- V64. -/
theorem test_bus_id : ends (step (asking State.reset (.read 0x00C))) (fun t => t.response == some (.data 0x41450107)) = true := by
  decide
theorem test_bus_misaligned :
    ends (step (asking running (.write 0x002 1))) (fun t => t.response == some .err && !t.hz) = true := by decide

/-- R220: the word 0x33221100 is the bytes 00 11 22 33, in KEY and in BUF. -/
theorem test_bus_lanes :
    ends (step (asking expanded (.write 0x02C 0x33221100))) (fun t => !t.kv && t.key[12] == 0x00 && t.key[15] == 0x33) = true ∧
    ends (step (asking State.reset (.write 0x1FFC 0x33221100)))
      (fun t => t.bufByte 0xFFC == 0x00 && t.bufByte 0xFFF == 0x33) = true := by decide +kernel

/-- V63 (2), (3), (4). -/
theorem test_busy_write :
    ends (step (asking running (.write 0x018 0x20))) (fun t => t.len == 16 && t.hz && t.response == some .ok) = true := by
  decide
theorem test_busy_read : ends (step (asking running (.read 0x018))) (fun t => t.response == some (.data 0x10)) = true := by
  decide

/-- V65: a reset aborts a running command. -/
theorem test_reset_aborts :
    ends (step { running with events := [.reset] }) (fun t => t.status == 0 && t.outlen == 0 && t.key == State.reset.key) =
      true := by decide

/-! ## Witnesses: a state and operands that meet all hypotheses of a statement, clause by clause -/

theorem keyed_current : keyed.KeysCurrent := fun h => absurd h (by decide)
theorem expanded_current : expanded.KeysCurrent := fun _ => rfl
theorem blockReady_current : blockReady.KeysCurrent := fun h => absurd h (by decide)
theorem helloReady_current : helloReady.KeysCurrent := fun h => absurd h (by decide)
theorem chainReady_current : chainReady.KeysCurrent := fun h => absurd h (by decide)
theorem chainBroken_current : chainBroken.KeysCurrent := fun h => absurd h (by decide)

theorem witness_DecodeOfEncodeIsTheCommand :
    (Instr.encround 0).wellFormed = true ∧ (Instr.decround 10).wellFormed = true ∧ Instr.cbcdec.wellFormed = true := by
  decide

theorem witness_DecodedWordIsItsEncoding :
    decode 0x00000A19 = .ok (.decround 10) ∧ decode 0x00000031 = .ok .cbcdec := by decide

/-- The edges of the ranges of R305, and the words beside them that are legal. -/
theorem witness_IllegalWordsRaiseIllegalCommand :
    (∀ v ∈ [0x05, 0x07, 0x0C, 0x0F, 0x17, 0x1A, 0x1F, 0x22, 0x2F, 0x32, 0xFF, 0x1000, 0x80000000, 0xB16, 0xF18, 0xB19, 0x103,
      0xF00], IllegalWord (BitVec.ofNat 32 v)) ∧
    (∀ v ∈ [0x00, 0x04, 0x08, 0x0B, 0x10, 0x16, 0x18, 0x19, 0x20, 0x21, 0x30, 0x31, 0xA16, 0xA18, 0xA19],
      ¬ IllegalWord (BitVec.ofNat 32 v)) := by decide

theorem witness_StepRunsTheDecodedCommand :
    decode 0x00000003 = .ok .encblk ∧ running.latch = some 0x00000003 ∧ running.events = [] ∧
    ({ running with events := [.core] } : State).events = [.core] := by decide

theorem witness_AcceptedCommandCompletes :
    running.latch = some 0x00000003 ∧ running.events = [] ∧
    ({ State.reset with latch := some 0x00001003, events := [.core, .reset] } : State).events = .core :: [.reset] := by decide

theorem reset_inv : State.reset.Inv where
  legalConfig := by decide
  bufferInside := ⟨rfl, fun _ h => by simp [State.reset, State.resetWith] at h⟩
  keysCurrent := fun h => absurd h (by decide)
  latchAgrees := fun _ h => absurd h (by simp [State.reset, State.resetWith])

theorem witness_InvariantIsKept :
    (asking State.reset (.write 0x1000 0x33221100)).Inv ∧
      ∃ t, step (asking State.reset (.write 0x1000 0x33221100)) = .next t ∧ t.buf ≠ [] :=
  ⟨⟨reset_inv.1, reset_inv.2, reset_inv.3, reset_inv.4⟩, _, rfl, by decide⟩

/-- KV changed by a reset, a KEY write, KEYEXP, a round command and KEYLD. -/
theorem witness_KeyValidTellsTheTruth :
    (expanded.KeysCurrent ∧ ∃ t, step { expanded with events := [.reset] } = .next t ∧ t.kv ≠ expanded.kv) ∧
    (∃ t, step (asking expanded (.write 0x02C 0x0F0E0D0C)) = .next t ∧ t.kv ≠ expanded.kv) ∧
    (∃ t, step (keyed.withFetchWord 32 0x002) = .next t ∧ t.kv ≠ keyed.kv) ∧
    (∃ t, step (keyed.withFetchWord 32 0xA18) = .next t ∧ t.kv ≠ keyed.kv) ∧
    (∃ t, step ({ expanded with len := 16 }.withFetchWord 32 0x001) = .next t ∧ t.kv ≠ expanded.kv) :=
  ⟨⟨expanded_current, _, rfl, by decide⟩, ⟨_, rfl, by decide⟩, ⟨_, rfl, by decide⟩, ⟨_, rfl, by decide⟩, ⟨_, rfl, by decide⟩⟩

theorem witness_OnlyACmdWriteIssuesACommand :
    ∃ t, step (asking State.reset (.write 0x000 0x00001003)) = .next t ∧ State.reset.latch ≠ some 0x00001003 ∧
      t.latch = some 0x00001003 := ⟨_, rfl, by decide, by decide⟩

theorem witness_IdleHardwareKeepsItsState :
    (∃ t, (asking State.reset (.read 0x000)).latch = none ∧
      (∀ off v es, (asking State.reset (.read 0x000)).events ≠ .bus (.write off v) :: es) ∧
      (∀ es, (asking State.reset (.read 0x000)).events ≠ .reset :: es) ∧ step (asking State.reset (.read 0x000)) = .next t) ∧
    ∃ t, (asking running (.read 0x040)).events = .bus (.read 0x040) :: [] ∧ step (asking running (.read 0x040)) = .next t :=
  ⟨⟨_, rfl, by simp [asking], by simp [asking], rfl⟩, _, rfl, rfl⟩

theorem witness_BusAnswersByAlignment :
    (0x0001 : Offset).toNat % 4 ≠ 0 ∧ (0x1001 : Offset).toNat % 4 ≠ 0 ∧ (0xFFFF : Offset).toNat % 4 ≠ 0 ∧
    (0x0000 : Offset).toNat % 4 = 0 ∧ (0xFFFC : Offset).toNat % 4 = 0 := by decide

/-- The edges of the reserved ranges, and the offsets beside them that are mapped. -/
theorem witness_ReservedOffsetsReadZero :
    (∀ o ∈ [0x05C, 0x0FC, 0x1B0, 0xFFC, 0x2000, 0xFFFC], o % 4 = 0 ∧ ReservedOffset State.reset.config.bufSize o) ∧
    (∀ o ∈ [0x058, 0x100, 0x1AC, 0x1000, 0x1FFC], ¬ ReservedOffset State.reset.config.bufSize o) ∧
    State.reset.latch = none ∧ running.latch ≠ none := by decide

theorem witness_ByteLanesOfTheBus :
    State.reset.latch = none ∧ State.reset.config.legal = true ∧ 0 % 4 = 0 ∧ 0 + 4 ≤ State.reset.config.bufSize ∧
    4092 % 4 = 0 ∧ 4092 + 4 ≤ State.reset.config.bufSize := by decide

theorem witness_OperandRegisters : State.reset.latch = none ∧ ∃ t, exec .cbcenc helloReady = .next t := ⟨rfl, _, rfl⟩

theorem witness_ReadOnlyRegisters :
    State.reset.latch = none ∧ (∃ t, exec .keyexp State.reset = .next t) ∧ (∃ t, exec .gfmul State.reset = .next t) ∧
    (∃ t, exec .gfdbl State.reset = .next t) ∧ (∃ t, exec .sbox State.reset = .next t) ∧
    ∃ t, exec .invsbox State.reset = .next t := ⟨rfl, ⟨_, rfl⟩, ⟨_, rfl⟩, ⟨_, rfl⟩, ⟨_, rfl⟩, _, rfl⟩

/-- HZ cleared by a STATUS write and by a reset. -/
theorem witness_WritesWhileBusyAreDropped :
    (running.latch ≠ none ∧ (0x0000 : Offset).toNat % 4 = 0 ∧ (0xFFFC : Offset).toNat % 4 = 0) ∧
    (∃ t, step (asking { State.reset with hz := true } (.write 0x004 0x10)) = .next t ∧ t.hz = false) ∧
    (∃ t, step { running with hz := true, events := [.reset] } = .next t ∧ t.hz = false) ∧
    (0x0002 : Offset).toNat % 4 ≠ 0 := ⟨by decide, ⟨_, rfl, by decide⟩, ⟨_, rfl, by decide⟩, by decide⟩

theorem witness_ReadsWhileBusy :
    running.latch ≠ none ∧ ∀ o ∈ [0x000, 0x004, 0x008, 0x00C, 0x010, 0x014, 0x018, 0x030, 0x03C, 0x050, 0x054, 0x05C, 0xFFFC],
      (BitVec.ofNat 16 o).toNat % 4 = 0 ∧ (BitVec.ofNat 16 o).toNat = o ∧
      (0x054 < o → ReservedOffset running.config.bufSize (BitVec.ofNat 16 o).toNat) := by decide

theorem witness_CmdWriteIsAccepted : ({ State.reset with done := true, ie := true } : State).latch = none := rfl

theorem witness_StatusWriteClearsDoneAndHz : State.reset.latch = none ∧ running.latch ≠ none := by decide

theorem witness_StatusRegisterFields : ({ State.reset with errcode := some .overlap, hz := true } : State).latch = none := rfl

/-- DONE cleared by a STATUS write, a CMD write and a reset; IE changed by a CONFIG write and a reset. -/
theorem witness_InterruptOutput :
    (∃ t, executeWord 0x00000000 running = .next t) ∧
    (∃ t, step (asking { State.reset with done := true } (.write 0x004 0x2)) = .next t ∧ t.done = false) ∧
    (∃ t, step (asking { State.reset with done := true } (.write 0x000 0x0)) = .next t ∧ t.done = false) ∧
    (∃ t, step { State.reset with done := true, ie := true, events := [.reset] } = .next t ∧ t.done = false ∧ true ≠ t.ie) ∧
    (∃ t, step (asking State.reset (.write 0x008 0x1)) = .next t ∧ State.reset.ie ≠ t.ie) ∧ State.reset.latch = none :=
  ⟨⟨_, rfl⟩, ⟨_, rfl, by decide⟩, ⟨_, rfl, by decide⟩, ⟨_, rfl, by decide, by decide⟩, ⟨_, rfl, by decide⟩, rfl⟩

/-- `PlainWord`: the words of an OPC that are not its command, by RND and by RSV. -/
theorem witness_PlainWord :
    (∀ c ∈ [0x00, 0x01, 0x02, 0x03, 0x04, 0x08, 0x09, 0x0A, 0x0B, 0x10, 0x11, 0x12, 0x13, 0x14, 0x15, 0x20, 0x21, 0x30, 0x31],
      (BitVec.ofNat 32 (0x100 + c)).toNat % 256 = c ∧ (BitVec.ofNat 32 (0x100 + c)).toNat ≠ c ∧
      (BitVec.ofNat 32 (0x80000000 + c)).toNat % 256 = c ∧ (BitVec.ofNat 32 (0x80000000 + c)).toNat ≠ c) := by decide

/-- `RoundWord`: RND 10 and 11, and RSV not 0. -/
theorem witness_RoundWord :
    10 ≤ 10 ∧ ∀ c ∈ [0x16, 0x18, 0x19],
      (BitVec.ofNat 32 (0xB00 + c)).toNat % 256 = c ∧ 10 < (BitVec.ofNat 32 (0xB00 + c)).toNat / 256 % 16 ∧
      (BitVec.ofNat 32 (0x1000 + c)).toNat % 256 = c ∧ (BitVec.ofNat 32 (0x1000 + c)).toNat / 4096 ≠ 0 := by decide

/-- A block whose every row has four equal bytes. -/
theorem witness_ShiftRowsCommands :
    (0 < 4 ∧ 3 < 4) ∧ ∀ r c : Nat, cell (Vector.replicate 16 0x5A) r c = cell (Vector.replicate 16 0x5A) r 0 :=
  ⟨by decide, fun r c => by simp [cell]⟩

theorem witness_MixColumnsCommands : 0 < 4 ∧ 3 < 4 := by decide

theorem witness_AddRoundKeyCommand : keyed.KeysCurrent ∧ expanded.KeysCurrent := ⟨keyed_current, expanded_current⟩

theorem witness_RoundCommands : keyed.KeysCurrent ∧ expanded.KeysCurrent := ⟨keyed_current, expanded_current⟩

theorem witness_KeyexpCommand : expanded.KeysCurrent ∧ expanded.kv = true := ⟨expanded_current, rfl⟩

/-- The last region inside the buffer and the first outside it, LEN 15 and 17. -/
theorem witness_KeyldCommand :
    ((0x10 : Word).toNat = 16 ∧ (0xFF0 : Word).toNat + 16 ≤ State.reset.config.bufSize) ∧
    ((0xF : Word).toNat ≠ 16 ∧ (0x11 : Word).toNat ≠ 16) ∧
    State.reset.config.bufSize < (0xFF1 : Word).toNat + 16 := by decide

/-- V30, V38a, V39a: no error; V35 to V39: the errors. -/
theorem witness_BlockCommands :
    blockReady.KeysCurrent ∧ expectedError blockReady .encblk = none ∧
    expectedError { blockReady with dst := 0xFF0 } .decblk = none ∧ expectedError { blockReady with dst := 0 } .encblk = none ∧
    expectedError { blockReady with len := 17 } .encblk = some .sizeMismatch ∧
    expectedError { blockReady with dst := 0xFF1 } .decblk = some .range ∧
    expectedError { blockReady with dst := 1 } .encblk = some .overlap := ⟨blockReady_current, by decide⟩

/-- V40: SRC 0xFE0 fits and SRC 0xFF0 does not; and LEN 0. -/
theorem witness_PadCommand :
    State.reset.config.legal = true ∧ 0xFE0 + (16 + (16 - 16 % 16)) ≤ State.reset.config.bufSize ∧
    0xFF0 + (0 + (16 - 0 % 16)) ≤ State.reset.config.bufSize ∧
    State.reset.config.bufSize < 0xFF0 + (16 + (16 - 16 % 16)) := by decide

/-- V41. -/
theorem witness_UnpadCommand :
    State.reset.config.legal = true ∧
    expectedError { State.reset with buf := [(15, 0x10)], len := 16 } .unpad = none ∧
    expectedError { State.reset with buf := [(15, 0x01)], len := 16 } .unpad = none ∧
    expectedError { State.reset with buf := [(15, 0x00)], len := 16 } .unpad = some .padding ∧
    expectedError { State.reset with buf := [(15, 0x11)], len := 16 } .unpad = some .padding ∧
    expectedError { State.reset with buf := [(2, 0x05)], len := 3 } .unpad = some .padding ∧
    expectedError State.reset .unpad = some .padding ∧
    expectedError { State.reset with src := 0xFF1, len := 16 } .unpad = some .range := by decide

/-- V50, V53. -/
theorem witness_CbcencCommand :
    helloReady.KeysCurrent ∧ helloReady.config.legal = true ∧ expectedError helloReady .cbcenc = none ∧
    expectedError { helloReady with len := 0, dst := 1 } .cbcenc = none ∧
    expectedError { helloReady with dst := 0xFF0 } .cbcenc = none ∧
    expectedError { helloReady with len := 16, dst := 0xFE8 } .cbcenc = some .range ∧
    expectedError { helloReady with dst := 4 } .cbcenc = some .overlap := ⟨helloReady_current, by decide⟩

theorem chainReady_ok : expectedError chainReady .cbcdec = none := by decide +kernel
theorem chainBroken_padding : expectedError chainBroken .cbcdec = some .padding := by decide +kernel

/-- V51, V52 (a), V53. -/
theorem witness_CbcdecCommand :
    chainReady.KeysCurrent ∧ chainReady.config.legal = true ∧ expectedError chainReady .cbcdec = none ∧
    chainBroken.KeysCurrent ∧ chainBroken.config.legal = true ∧ expectedError chainBroken .cbcdec = some .padding ∧
    expectedError { chainReady with len := 15 } .cbcdec = some .malformedCiphertext ∧
    expectedError { chainReady with src := 0xFF1 } .cbcdec = some .range ∧
    expectedError { chainReady with dst := 0x41 } .cbcdec = some .overlap :=
  ⟨chainReady_current, rfl, chainReady_ok, chainBroken_current, rfl, chainBroken_padding, by decide⟩

theorem witness_CheckOrder :
    IllegalWord 0x00001003 ∧ Instr.unpad.wellFormed = true ∧
    ∃ t, exec .unpad { State.reset with src := 0xFF1, len := 16 } = .next t ∧ t.errcode = some .range :=
  ⟨by decide, by decide, _, rfl, by decide⟩

/-- IllegalCommand, an error of a command that produces a buffer result and of one that does not, and the Padding error of
CBCDEC. -/
theorem witness_FailedCommandLeavesTheData :
    (∃ t, executeWord 0x00001003 running = .next t ∧ t.errcode = some .illegalCommand) ∧
    (∃ t, executeWord 0x00000003 { running with len := 15 } = .next t ∧ t.errcode = some .sizeMismatch) ∧
    (∃ t, executeWord 0x00000001 { running with src := 0xFF1 } = .next t ∧ t.errcode = some .range) ∧
    BufferProducing .encblk ∧ ¬ BufferProducing .keyld ∧
    ends (executeWord 0x00000031 chainBroken) (fun t => t.errcode == some .padding) = true :=
  ⟨⟨_, rfl, by decide⟩, ⟨_, rfl, by decide⟩, ⟨_, rfl, by decide⟩, by decide, by decide, by decide +kernel⟩

theorem witness_RegisterCommandFrame :
    (∃ t, exec .gfmul State.reset = .next t) ∧ ∃ t, exec .mixcolumns State.reset = .next t := ⟨⟨_, rfl⟩, _, rfl⟩

theorem witness_KeyAndRoundCommandFrame :
    (∃ t, exec .keyld { State.reset with len := 16 } = .next t) ∧ (∃ t, exec .keyexp keyed = .next t) ∧
    ∃ t, exec (.decround 10) keyed = .next t := ⟨⟨_, rfl⟩, ⟨_, rfl⟩, _, rfl⟩

theorem witness_StoringCommandFrame :
    (∃ t, exec .encblk blockReady = .next t ∧ ¬ Inside (outputRegion blockReady .encblk) 15 ∧
      Inside (outputRegion blockReady .encblk) 16 ∧ Inside (outputRegion blockReady .encblk) 31 ∧
      ¬ Inside (outputRegion blockReady .encblk) 32) ∧
    (∃ t, exec .pad helloReady = .next t ∧ ¬ Inside (outputRegion helloReady .pad) 4) ∧ ∃ t, exec .unpad helloReady = .next t :=
  ⟨⟨_, rfl, by decide, by decide, by decide, by decide⟩, ⟨_, rfl, by decide⟩, _, rfl⟩

/-- Another byte outside the input region, and another draw. -/
theorem witness_CommandReadsOnlyItsRegion :
    (∀ a, Inside (inputRegion blockReady .encblk) a →
      State.bufByte { blockReady with buf := storeByte blockReady.buf 16 0xAA, bufDraw := 7 } a = blockReady.bufByte a) ∧
    ∃ t, exec .encblk blockReady = .next t := by
  refine ⟨fun a h => ?_, _, rfl⟩
  have all : ∀ k : Fin 16, State.bufByte { blockReady with buf := storeByte blockReady.buf 16 0xAA, bufDraw := 7 } k.val =
      blockReady.bufByte k.val := by decide
  exact all ⟨a, by simpa [Inside, inputRegion, blockReady] using h⟩

theorem witness_StaleRoundKeysNeverMatter :
    expanded.KeysCurrent ∧ ∃ t, exec (.encround 1) expanded = .next t := ⟨expanded_current, _, rfl⟩

theorem witness_GfMulIsTheFieldProduct : (0x53 : Byte) ≠ 0 ∧ gfMul 0x53 0xCA = 0x01 := by decide

theorem witness_TablesAreTheConstruction : gfMul 0x53 0xCA = 0x01 ∧ gfMul 0x01 0x01 = 0x01 := by decide

theorem witness_TransformationLaws : ∀ r c : Nat, cell (Vector.replicate 16 0xC6) r c = cell (Vector.replicate 16 0xC6) 0 c := by
  intro r c; simp [cell]

theorem witness_CbcChainingRules : (List.replicate 32 (0x00 : Byte)).length = 16 * 2 ∧ 0 < 2 ∧ 1 < 2 := by decide

/-- Two blocks, a bit of the first changed (P6), and block 1 after it. -/
theorem witness_CbcErrorPropagation :
    (List.replicate 32 (0x00 : Byte)).length = 16 * 2 ∧ (0x01 :: List.replicate 31 (0x00 : Byte)).length = 16 * 2 ∧ 0 < 2 ∧
    (∀ j : Nat, j < 2 → j ≠ 0 →
      blockAt (0x01 :: List.replicate 31 (0x00 : Byte)) (16 * j) = blockAt (List.replicate 32 (0x00 : Byte)) (16 * j)) ∧
    0 + 1 < 2 := by
  refine ⟨rfl, rfl, by decide, fun j h h' => ?_, by decide⟩
  obtain rfl : j = 1 := by omega
  decide

theorem witness_RoundCommandsMakeTheCipher : keyed.KeysCurrent ∧ expanded.KeysCurrent := ⟨keyed_current, expanded_current⟩

/-- DECBLK in place and into the last block of the buffer. -/
theorem witness_DecblkRestoresTheBlock :
    blockReady.KeysCurrent ∧ expectedError blockReady .encblk = none ∧
    ((0x10 : Word).toNat + 16 ≤ blockReady.config.bufSize ∧ ¬ PartlyOverlap blockReady.dst.toNat 16 (0x10 : Word).toNat 16) ∧
    ((0xFF0 : Word).toNat + 16 ≤ blockReady.config.bufSize ∧
      ¬ PartlyOverlap blockReady.dst.toNat 16 (0xFF0 : Word).toNat 16) := ⟨blockReady_current, by decide⟩

/-- P2: CBCDEC in place; and into the last block of the buffer. -/
theorem witness_CbcdecRestoresTheMessage :
    helloReady.KeysCurrent ∧ helloReady.config.legal = true ∧ expectedError helloReady .cbcenc = none ∧
    ((0x40 : Word).toNat + 16 * (helloReady.len.toNat / 16 + 1) ≤ helloReady.config.bufSize ∧
      ¬ PartlyOverlap helloReady.dst.toNat (16 * (helloReady.len.toNat / 16 + 1)) (0x40 : Word).toNat
        (16 * (helloReady.len.toNat / 16 + 1))) ∧
    (0xFF0 : Word).toNat + 16 * (helloReady.len.toNat / 16 + 1) ≤ helloReady.config.bufSize :=
  ⟨helloReady_current, by decide⟩

end Sys2Proof.Machine.Tests
end

