-- ==== Sys2Proof/Proofs/Invariant.lean ====
section
/-! PROOFS. What a command and a host write can do to the round keys and to the buffer, the cases an invariant is checked
on, and the invariant of `Safety.lean` (O8). -/

namespace Sys2Proof.Machine

/-! ### KV, RK and KEY (R118) -/

/-- KV, RK and KEY are the same in both states. -/
structure SameKeys (s t : State) : Prop where
  kv : t.kv = s.kv
  rk : t.rk = s.rk
  key : t.key = s.key

/-- The commands that expand KEY: KEYEXP, and those that begin with EnsureRoundKeys (R520, R522). -/
def expandsKey : Instr → Bool
  | .keyexp | .encblk | .decblk | .addroundkey _ | .encround _ | .decround _ | .cbcenc | .cbcdec => true
  | _ => false

/-- What command i may do to the keys (R118): nothing, or clear KV, or set KV with RK the expansion of KEY. -/
inductive KeysAfter (i : Instr) (s t : State) : Prop where
  | same (h : SameKeys s t)
  | cleared (hi : i = .keyld) (hkv : t.kv = false)
  | expanded (hi : expandsKey i = true) (hkv : t.kv = true) (hrk : t.rk = keyExpansion t.key)

theorem keysCurrent_of_invalid {s : State} (h : s.kv = false) : s.KeysCurrent := by
  simp [State.KeysCurrent, h]

theorem SameKeys.keysCurrent {s t : State} (h : SameKeys s t) (hs : s.KeysCurrent) : t.KeysCurrent := by
  simpa [State.KeysCurrent, h.kv, h.rk, h.key] using hs

theorem KeysAfter.keysCurrent {i : Instr} {s t : State} (h : KeysAfter i s t) (hs : s.KeysCurrent) : t.KeysCurrent := by
  cases h with
  | same h => exact h.keysCurrent hs
  | cleared _ hkv => exact keysCurrent_of_invalid hkv
  | expanded _ _ hrk => exact fun _ => hrk

/-- EnsureRoundKeys leaves the keys alone where KV was 1, and expands KEY where it was 0 (R522). -/
theorem keysAfter_ensureRoundKeys {i : Instr} {s t : State} (hi : expandsKey i = true)
    (h : SameKeys s.ensureRoundKeys t) : KeysAfter i s t := by
  cases hkv : s.kv with
  | true => exact .same (by rwa [State.ensureRoundKeys_of_valid s hkv] at h)
  | false =>
    rw [State.ensureRoundKeys_of_invalid s hkv] at h
    exact .expanded hi h.kv (by rw [h.rk, h.key]; rfl)

/-! ### BUF (R200, R203) -/

/-- The buffer's list of t is that of s with a byte sequence stored into it that fills the region r, inside BUF. -/
def StoredAt (r : Nat × Nat) (s t : State) : Prop :=
  r.1 + r.2 ≤ s.config.bufSize ∧ ∃ vs : List Byte, vs.length = r.2 ∧ t.buf = storeBytes s.buf r.1 vs

theorem bufferInside_of_same {s t : State} (hb : t.buf = s.buf) (hc : t.config = s.config) (hs : s.BufferInside) :
    t.BufferInside := by
  simpa [State.BufferInside, hb, hc] using hs

theorem StoredAt.bufferInside {r : Nat × Nat} {s t : State} (h : StoredAt r s t) (hc : t.config = s.config)
    (hs : s.BufferInside) : t.BufferInside := by
  obtain ⟨hfit, vs, hlen, hbuf⟩ := h
  obtain ⟨hwf, hin⟩ := hs
  unfold State.BufferInside
  rw [hbuf, hc]
  exact ⟨storeBytes_wf hwf r.1 vs, s.memWrite_mem hin (by omega)⟩

/-! ### What a command does to the keys and to BUF -/

/-- What a command leaves of the keys (R118) and of BUF: its list as it was, or with the command's output region filled,
that region inside BUF (R201, R203). -/
structure DataEffect (i : Instr) (s t : State) : Prop where
  keys : KeysAfter i s t
  buf : t.buf = s.buf ∨ StoredAt (outputRegion s i) s t

theorem dataEffect_of_same {i : Instr} {s t : State} (hkeys : SameKeys s t) (hbuf : t.buf = s.buf) : DataEffect i s t :=
  ⟨.same hkeys, .inl hbuf⟩

theorem raiseError_dataEffect {i : Instr} {s t : State} {e : CmdError} (h : s.raiseError e = .next t) :
    DataEffect i s t := by
  cases h
  exact dataEffect_of_same (by constructor <;> simp) (by simp)

theorem raiseBuffer_dataEffect {i : Instr} {s t : State} {e : CmdError} (h : s.raiseBuffer e = .next t) :
    DataEffect i s t := by
  cases h
  exact dataEffect_of_same (by constructor <;> simp) (by simp)

theorem roundCommand_dataEffect {i : Instr} (hi : expandsKey i = true) {s t : State} {rnd : BitVec 4}
    {f : Block → RoundKeys → Fin 11 → Block} (h : s.roundCommand rnd f = .next t) : DataEffect i s t := by
  rcases s.roundCommand_cases rnd f with ⟨_, e⟩ | ⟨k, _, e⟩
  · exact raiseError_dataEffect (e.symm.trans h)
  · cases e.symm.trans h
    exact ⟨keysAfter_ensureRoundKeys hi (by constructor <;> simp), .inl (by simp)⟩

/-- ENCBLK and DECBLK past their checks (R560, R561). -/
theorem putBlock_dataEffect {i : Instr} (hi : expandsKey i = true) {s : State} (hr : outputRegion s i = (s.dstAddr, 16))
    (he : s.blockError = none) (B : Block) : DataEffect i s ((s.ensureRoundKeys.putBlock B).complete none) := by
  obtain ⟨_, hreg⟩ := s.blockError_eq_none.mp he
  obtain ⟨_, hfit, _⟩ := (s.regionError_eq_none 16 16).mp hreg
  have hst : StoredAt (s.dstAddr, 16) s ((s.ensureRoundKeys.putBlock B).complete none) :=
    ⟨hfit, B.toList, by simp, by simp [State.dstAddr]⟩
  exact ⟨keysAfter_ensureRoundKeys hi (by constructor <;> simp), .inr (hr ▸ hst)⟩

/-- CBCENC and CBCDEC past the checks they make before they write (R660, R661), a Padding error included (R830). -/
theorem putChain_dataEffect {i : Instr} (hi : expandsKey i = true) {s : State} {n m : Nat}
    (hr : outputRegion s i = (s.dstAddr, m)) (he : s.regionError n m = none) {d : List Byte} (hd : d.length = m)
    (l : Nat) (e : Option CmdError) :
    DataEffect i s (((s.ensureRoundKeys.putChain d).setOutlen l).complete e) := by
  obtain ⟨_, hfit, _⟩ := (s.regionError_eq_none n m).mp he
  have hst : StoredAt (s.dstAddr, m) s (((s.ensureRoundKeys.putChain d).setOutlen l).complete e) :=
    ⟨hfit, d, hd, by simp [State.dstAddr]⟩
  exact ⟨keysAfter_ensureRoundKeys hi (by constructor <;> simp), .inr (hr ▸ hst)⟩

theorem exec_dataEffect {i : Instr} {s t : State} (h : exec i s = .next t) : DataEffect i s t := by
  cases i <;> simp only [exec] at h
  case addroundkey k | encround k | decround k => exact roundCommand_dataEffect rfl h
  case keyexp =>
    cases h
    exact ⟨.expanded rfl rfl rfl, .inl rfl⟩
  case keyld =>
    unfold execKeyld at h
    split at h
    · exact raiseError_dataEffect h
    · cases h
      exact ⟨.cleared rfl rfl, .inl rfl⟩
  case encblk | decblk =>
    simp only [execEncblk, execDecblk] at h
    split at h
    · exact raiseBuffer_dataEffect h
    · next he =>
      cases h
      exact putBlock_dataEffect rfl rfl he _
  case cbcenc =>
    unfold execCbcenc at h
    split at h
    · exact raiseBuffer_dataEffect h
    · next he =>
      cases h
      exact putChain_dataEffect rfl rfl he s.length_cbcCiphertext _ _
  case cbcdec =>
    unfold execCbcdec at h
    split at h
    · exact raiseBuffer_dataEffect h
    · next he =>
      obtain ⟨_, hmod, hreg⟩ := s.cbcdecError_eq_none.mp he
      split at h <;> cases h <;> exact putChain_dataEffect rfl rfl hreg (s.length_cbcPlaintext hmod) _ _
  case pad =>
    unfold execPad at h
    split at h
    · exact raiseBuffer_dataEffect h
    · next hr =>
      cases h
      have hfit : s.srcAddr + s.length + padCount s.length ≤ s.config.bufSize := by
        simpa [State.inRange, Nat.add_assoc] using hr
      have hlen : (padBytes s.length).length = padCount s.length := List.length_replicate
      exact ⟨.same (by constructor <;> simp), .inr ⟨hfit, _, hlen, rfl⟩⟩
  case unpad =>
    unfold execUnpad at h
    repeat' split at h
    all_goals cases h; exact dataEffect_of_same (by constructor <;> simp) (by simp)
  -- what is left writes RES, STATE or nothing
  all_goals cases h; exact dataEffect_of_same (by constructor <;> simp) (by simp)

/-- What a command word leaves: an illegal one only completes (R811), a legal one has its command's effect. -/
theorem executeWord_cases {v : Word} {s t : State} (h : executeWord v s = .next t) :
    t = s.complete (some .illegalCommand) ∨ ∃ i, decode v = .ok i ∧ DataEffect i s t := by
  cases hd : decode v with
  | error e => rw [executeWord_error hd] at h; cases h; exact .inl rfl
  | ok i => rw [executeWord_ok hd] at h; exact .inr ⟨i, rfl, exec_dataEffect h⟩

theorem executeWord_keysCurrent {v : Word} {s t : State} (h : executeWord v s = .next t) (hs : s.KeysCurrent) :
    t.KeysCurrent := by
  obtain rfl | ⟨i, _, he⟩ := executeWord_cases h
  · exact hs
  · exact he.keys.keysCurrent hs

theorem executeWord_bufferInside {v : Word} {s t : State} (h : executeWord v s = .next t) (hs : s.BufferInside) :
    t.BufferInside := by
  have hc := (completed_of_executeWord h).config
  obtain rfl | ⟨i, _, he⟩ := executeWord_cases h
  · exact hs
  · rcases he.buf with hb | hb
    · exact bufferInside_of_same hb hc hs
    · exact hb.bufferInside hc hs

/-! ### What a host write does while Idle (R102, R113, R118, R220) -/

theorem controlTarget_ne_buf (w a : Nat) : controlTarget w ≠ .buf a := by
  unfold controlTarget; split <;> simp

theorem byteTarget_ne_buf (w a : Nat) : byteTarget w ≠ .buf a := by
  unfold byteTarget; split <;> simp

/-- BUF is at the offsets from 0x1000 up, and nowhere else (R102). -/
theorem targetAt_eq_buf {n m a : Nat} (h : targetAt n m = .buf a) : m = 0x1000 + a ∧ a < n := by
  unfold targetAt at h
  split_ifs at h
  · exact absurd h (controlTarget_ne_buf _ _)
  · exact absurd h (byteTarget_ne_buf _ _)
  · have ha : m - 0x1000 = a := BusTarget.buf.inj h
    omega

section idleWrite

variable (s : State) (v : Word) {w : BusTarget}

@[simp] theorem idleWrite_config (w : BusTarget) : (s.idleWrite v w).config = s.config := by
  cases w <;> simp [State.idleWrite, State.writeBufWord]

theorem idleWrite_latch (h : w ≠ .cmd) : (s.idleWrite v w).latch = s.latch := by
  cases w <;> simp_all [State.idleWrite, State.writeBufWord]

theorem idleWrite_buf (h : ∀ a, w ≠ .buf a) : (s.idleWrite v w).buf = s.buf := by
  cases w <;> simp_all [State.idleWrite]

theorem idleWrite_sameKeys (h : ∀ j, w ≠ .key j) : SameKeys s (s.idleWrite v w) := by
  cases w <;> constructor <;> simp_all [State.idleWrite, State.writeBufWord]

end idleWrite

/-- A write to KEY clears KV (R118), and no other touches the keys. -/
theorem idleWrite_keysCurrent {s : State} (hs : s.KeysCurrent) (v : Word) (w : BusTarget) :
    (s.idleWrite v w).KeysCurrent := by
  by_cases hw : ∃ j, w = .key j
  · obtain ⟨j, rfl⟩ := hw
    exact keysCurrent_of_invalid rfl
  · exact (idleWrite_sameKeys s v (not_exists.mp hw)).keysCurrent hs

/-- An aligned write stays inside BUF, since a legal BUF_SIZE is a multiple of 4 (R11, R211). -/
theorem idleWrite_bufferInside {s : State} (hleg : s.config.legal = true) (hs : s.BufferInside) {off : Offset}
    (hoff : off.toNat % 4 = 0) (v : Word) : (s.idleWrite v (s.target off)).BufferInside := by
  by_cases hw : ∃ a, s.target off = .buf a
  · obtain ⟨a, ht⟩ := hw
    obtain ⟨hn, ha⟩ := targetAt_eq_buf ht
    obtain ⟨hmod, _, _⟩ := of_decide_eq_true hleg
    have hst : StoredAt (a, 4) s (s.writeBufWord a v) := ⟨by simp; omega, _, rfl, rfl⟩
    rw [ht]
    exact hst.bufferInside rfl hs
  · exact bufferInside_of_same (idleWrite_buf s v (not_exists.mp hw)) (idleWrite_config s v _) hs

/-- A write to CMD issues a command as acceptance leaves it (R701), and no other puts one in flight (R113). -/
theorem idleWrite_latchAgrees {s : State} (hidle : s.latch = none) (v : Word) (w : BusTarget) :
    (s.idleWrite v w).LatchAgrees := by
  intro u hu
  by_cases hw : w = .cmd
  · subst hw
    exact ⟨Option.some.inj hu, rfl, rfl⟩
  · simp [idleWrite_latch s v hw, hidle] at hu

/-! ### The invariant -/

/-- The cases an invariant has to be checked on (R841). One that looks neither at the world's fields nor at HZ, which is
all that a read, a dropped write and a turn of the idle core change, is kept by every step if completion, reset and the
host's writes while Idle keep it. -/
theorem step_preserves {P : State → Prop}
    (frame : ∀ s z n r es, P s → P { s with hz := z, freeReads := n, response := r, events := es })
    (command : ∀ s t v, P s → executeWord v s = .next t → P t)
    (reset : ∀ s, P s → P s.resetStep)
    (write : ∀ s off v, P s → s.latch = none → off.toNat % 4 = 0 → P (s.idleWrite v (s.target off)))
    {s t : State} (hs : P s) (h : step s = .next t) : P t := by
  have turn (es : List Event) : P { s with events := es } := frame s _ _ _ es hs
  rcases step_cases h with
    ⟨es, _, _, rfl⟩ | ⟨es, v, _, _, hx⟩ | ⟨es, _, rfl⟩ | ⟨es, off, _, rfl⟩ | ⟨es, off, v, _, rfl⟩
  · exact turn es
  · exact command _ _ v (turn es) hx
  · exact reset _ (turn es)
  · rcases busRead_cases { s with events := es } off with ⟨_, e⟩ | ⟨_, _, e⟩ | ⟨_, _, e⟩ <;> rw [e] <;>
      exact frame s _ _ _ es hs
  · rcases busWrite_cases { s with events := es } off v with ⟨_, e⟩ | ⟨_, _, e⟩ | ⟨halign, hidle, e⟩ <;> rw [e]
    · exact frame s _ _ _ es hs
    · exact frame s _ _ _ es hs
    · exact frame _ _ _ _ _ (write _ off v (turn es) hidle halign)

theorem step_keysCurrent {s t : State} (hs : s.KeysCurrent) (h : step s = .next t) : t.KeysCurrent :=
  step_preserves (P := State.KeysCurrent)
    (frame := fun _ _ _ _ _ hs => hs)
    (command := fun _ _ _ hs hx => executeWord_keysCurrent hx hs)
    (reset := fun _ _ => keysCurrent_of_invalid rfl)
    (write := fun s off v hs _ _ => idleWrite_keysCurrent hs v (s.target off)) hs h

theorem step_latchAgrees {s t : State} (hs : s.LatchAgrees) (h : step s = .next t) : t.LatchAgrees :=
  step_preserves (P := State.LatchAgrees)
    (frame := fun _ _ _ _ _ hs => hs)
    (command := fun _ _ _ _ hx _ hv => by simp [(completed_of_executeWord hx).latch] at hv)
    (reset := fun _ _ _ hv => by simp [State.resetStep, State.resetWith] at hv)
    (write := fun s off v _ hidle _ => idleWrite_latchAgrees hidle v (s.target off)) hs h

/-- The buffer's list is kept inside BUF together with the legality of BUF_SIZE, which a host write needs (R11, R220). -/
theorem step_bufferInside {s t : State} (hs : s.config.legal = true ∧ s.BufferInside) (h : step s = .next t) :
    t.config.legal = true ∧ t.BufferInside :=
  step_preserves (P := fun s => s.config.legal = true ∧ s.BufferInside)
    (frame := fun _ _ _ _ _ hs => hs)
    (command := fun _ _ _ ⟨hleg, hs⟩ hx =>
      ⟨by rwa [(completed_of_executeWord hx).config], executeWord_bufferInside hx hs⟩)
    (reset := fun _ ⟨hleg, _⟩ => ⟨hleg, rfl, by simp [State.resetStep, State.resetWith]⟩)
    (write := fun s _ v ⟨hleg, hs⟩ _ halign =>
      ⟨by rwa [idleWrite_config s v], idleWrite_bufferInside hleg hs halign v⟩) hs h

/-- Settles O8: each part of the invariant is kept by every step, the buffer's together with the legality of BUF_SIZE. -/
theorem invariantIsKept : Obligations.InvariantIsKept := by
  intro s t ⟨hleg, hbuf, hkeys, hlatch⟩ h
  obtain ⟨hleg', hbuf'⟩ := step_bufferInside ⟨hleg, hbuf⟩ h
  exact ⟨hleg', hbuf', step_keysCurrent hkeys h, step_latchAgrees hlatch h⟩

end Sys2Proof.Machine
end

section
/-! PROOFS. The steps that change the hardware beyond HZ, the registers as the host reads and writes them, who writes
them, and STATUS, KV and CMD (O10, O11, O14, O16, O17, O21, O22, O45). -/

namespace Sys2Proof.Machine

/-! ### The offsets of CMD and KEY (R102) -/

theorem controlTarget_eq_cmd {w : Nat} (h : controlTarget w = .cmd) : w = 0 := by
  unfold controlTarget at h; split at h <;> simp at h ⊢

theorem byteTarget_ne_cmd (w : Nat) : byteTarget w ≠ .cmd := by
  unfold byteTarget; split <;> simp

theorem controlTarget_ne_key (w j : Nat) : controlTarget w ≠ .key j := by
  unfold controlTarget; split <;> simp

theorem byteTarget_ne_key (w j : Nat) : byteTarget w ≠ .key j := by
  unfold byteTarget; split <;> simp

/-- CMD is at offset 0, and nowhere else. -/
theorem targetAt_eq_cmd {n m : Nat} (h : targetAt n m = .cmd) (hm : m % 4 = 0) : m = 0 := by
  unfold targetAt at h
  split_ifs at h
  · have hw := controlTarget_eq_cmd h
    omega
  · exact absurd h (byteTarget_ne_cmd _)

/-- KEY is at the offsets 0x020 to 0x02F, and nowhere else. -/
theorem targetAt_eq_key {n m j : Nat} (h : targetAt n m = .key j) : 0x020 ≤ m ∧ m < 0x030 := by
  unfold targetAt at h
  split_ifs at h
  · exact absurd h (controlTarget_ne_key _ _)
  · omega
  · exact absurd h (byteTarget_ne_key _ _)

/-! ### The steps that change more than HZ and the world's fields -/

/-- A host write while Idle does what it does whatever events are to come. -/
theorem idleWrite_withEvents (s : State) (es : List Event) (v : Word) (w : BusTarget) :
    State.idleWrite { s with events := es } v w = { s.idleWrite v w with events := es } := by
  cases w <;> rfl

/-- What a step changes but HZ and the world's fields, it changes by the completion of the command in flight, by a reset,
or by an aligned host write while Idle (R841). -/
theorem step_changes {s t : State} (h : step s = .next t) :
    (∃ z n r es, t = { s with hz := z, freeReads := n, response := r, events := es }) ∨
    (∃ es v, s.latch = some v ∧ executeWord v { s with events := es } = .next t) ∨
    (∃ es, s.events = .reset :: es ∧ t = State.resetStep { s with events := es }) ∨
    (∃ es off v, s.events = .bus (.write off v) :: es ∧ s.latch = none ∧ off.toNat % 4 = 0 ∧
      t = { s.idleWrite v (s.target off) with events := es, response := some .ok }) := by
  rcases step_cases h with
    ⟨es, _, _, rfl⟩ | ⟨es, v, _, hl, hx⟩ | ⟨es, he, rfl⟩ | ⟨es, off, _, rfl⟩ | ⟨es, off, v, he, rfl⟩
  · exact .inl ⟨_, _, _, es, rfl⟩
  · exact .inr (.inl ⟨es, v, hl, hx⟩)
  · exact .inr (.inr (.inl ⟨es, he, rfl⟩))
  · rcases busRead_cases { s with events := es } off with ⟨_, e⟩ | ⟨_, _, e⟩ | ⟨_, _, e⟩ <;> rw [e] <;>
      exact .inl ⟨_, _, _, es, rfl⟩
  · rcases busWrite_cases { s with events := es } off v with ⟨_, e⟩ | ⟨_, _, e⟩ | ⟨halign, hidle, e⟩ <;> rw [e]
    · exact .inl ⟨_, _, _, es, rfl⟩
    · exact .inl ⟨_, _, _, es, rfl⟩
    · exact .inr (.inr (.inr ⟨es, off, v, he, hidle, halign, by rw [idleWrite_withEvents]; rfl⟩))

/-! ### KV and the command latch -/

/-- The commands that expand KEY, by name (R520, R522). -/
theorem expandsKey_cases {i : Instr} (h : expandsKey i = true) :
    i = .keyexp ∨ i = .encblk ∨ i = .decblk ∨ i = .cbcenc ∨ i = .cbcdec ∨
      ∃ k, i = .addroundkey k ∨ i = .encround k ∨ i = .decround k := by
  cases i <;> simp [expandsKey] at h ⊢

/-- A host write while Idle changes KV only at a KEY word, and then clears it (R118). -/
theorem idleWrite_kv_cases (s : State) (v : Word) (w : BusTarget) :
    (s.idleWrite v w).kv = s.kv ∨ (∃ j, w = .key j) ∧ (s.idleWrite v w).kv = false := by
  by_cases hw : ∃ j, w = .key j
  · obtain ⟨j, rfl⟩ := hw
    exact .inr ⟨⟨j, rfl⟩, rfl⟩
  · exact .inl (idleWrite_sameKeys s v (not_exists.mp hw)).kv

/-- Settles O10: the invariant is `step_keysCurrent`, and each kind of step that changes anything changes KV only as R118
says. -/
theorem keyValidTellsTheTruth : Obligations.KeyValidTellsTheTruth := by
  refine ⟨fun s t => step_keysCurrent, fun s t h hkv => ?_⟩
  rcases step_changes h with ⟨z, n, r, es, rfl⟩ | ⟨es, v, hl, hx⟩ | ⟨es, he, rfl⟩ | ⟨es, off, v, he, hidle, halign, rfl⟩
  · exact absurd rfl hkv
  · rcases executeWord_cases hx with rfl | ⟨i, hd, hi⟩
    · exact absurd rfl hkv
    · refine .inr (.inr ⟨v, i, hl, hd, ?_⟩)
      cases hi.keys with
      | same hsame => exact absurd hsame.kv hkv
      | cleared hld hkv' => exact .inl ⟨hld, hkv'⟩
      | expanded hexp hkv' _ => exact .inr ⟨hkv', expandsKey_cases hexp⟩
  · exact .inl ⟨es, he, rfl⟩
  · rcases idleWrite_kv_cases s v (s.target off) with hsame | ⟨⟨j, hj⟩, hkv'⟩
    · exact absurd hsame hkv
    · obtain ⟨hlo, hhi⟩ := targetAt_eq_key hj
      exact .inr (.inl ⟨off, v, es, he, hidle, hlo, by omega, hkv'⟩)

/-- Settles O11: completion and reset leave no command in flight, and a host write puts one there only at CMD. -/
theorem onlyACmdWriteIssuesACommand : Obligations.OnlyACmdWriteIssuesACommand := by
  intro s t u h hnew hu
  rcases step_changes h with ⟨z, n, r, es, rfl⟩ | ⟨es, v, hl, hx⟩ | ⟨es, he, rfl⟩ | ⟨es, off, v, he, hidle, halign, rfl⟩
  · exact absurd hu hnew
  · simp [(completed_of_executeWord hx).latch] at hu
  · simp [State.resetStep, State.resetWith] at hu
  · refine ⟨hidle, es, ?_⟩
    by_cases hw : s.target off = .cmd
    · have hoff : off = 0x0000 := BitVec.eq_of_toNat_eq (targetAt_eq_cmd hw halign)
      have hv : v = u := by simpa [hw, State.idleWrite] using hu
      rw [he, hoff, hv]
    · exact absurd ((idleWrite_latch s v hw).symm.trans hu) hnew

/-! ### A host access at an aligned offset of the map (R102, R210 to R213) -/

/-- A host read while Idle answers what it does whatever events are to come. -/
theorem idleRead_withEvents (s : State) (es : List Event) (w : BusTarget) :
    State.idleRead { s with events := es } w = s.idleRead w := by
  cases w <;> rfl

theorem toNat_offset {n : Nat} (hn : n < 0x10000) : (BitVec.ofNat 16 n).toNat = n := Nat.mod_eq_of_lt hn

section hostAccess

variable {s : State} {n : Nat} {w : BusTarget}

theorem target_offset (hn : n < 0x10000) (hw : targetAt s.config.bufSize n = w) (es : List Event) :
    State.target { s with events := es } (BitVec.ofNat 16 n) = w := by
  simp only [State.target, busTarget, toNat_offset hn, hw]

/-- A read while Idle shows what the map names at the offset (R213). -/
theorem readsAs_of_idle (hidle : s.latch = none) (halign : n % 4 = 0) (hn : n < 0x10000)
    (hw : targetAt s.config.bufSize n = w) : ReadsAs s n (s.idleRead w).toNat := by
  intro es
  refine ⟨_, rfl, congrArg Host.Outcome.next ?_⟩
  rcases busRead_cases { s with events := es } (BitVec.ofNat 16 n) with ⟨h, _⟩ | ⟨_, h, _⟩ | ⟨_, _, e⟩
  · exact absurd halign (toNat_offset hn ▸ h)
  · exact absurd hidle h
  · rw [target_offset hn hw, idleRead_withEvents] at e
    exact e

/-- A write while Idle does what the map says at the offset (R213). -/
theorem writesTo_of_idle (hidle : s.latch = none) (halign : n % 4 = 0) (hn : n < 0x10000)
    (hw : targetAt s.config.bufSize n = w) (v : Word) : WritesTo s n v (s.idleWrite v w) := by
  intro es
  refine congrArg Host.Outcome.next ?_
  rcases busWrite_cases { s with events := es } (BitVec.ofNat 16 n) v with ⟨h, _⟩ | ⟨_, h, _⟩ | ⟨_, _, e⟩
  · exact absurd halign (toNat_offset hn ▸ h)
  · exact absurd hidle h
  · rw [target_offset hn hw, idleWrite_withEvents] at e
    exact e

/-- A write while a command runs is dropped and sets HZ (R911). -/
theorem writesTo_of_busy (hbusy : s.latch ≠ none) (halign : n % 4 = 0) (hn : n < 0x10000) (v : Word) :
    WritesTo s n v { s with hz := true } := by
  intro es
  refine congrArg Host.Outcome.next ?_
  rcases busWrite_cases { s with events := es } (BitVec.ofNat 16 n) v with ⟨h, _⟩ | ⟨_, _, e⟩ | ⟨_, h, _⟩
  · exact absurd halign (toNat_offset hn ▸ h)
  · exact e
  · exact absurd h hbusy

end hostAccess

/-! ### Reserved offsets (R102, R120) -/

theorem byteTarget_of_three_le {w : Nat} (h : 3 ≤ w) : byteTarget w = .reserved := by
  obtain ⟨d, rfl⟩ := Nat.exists_eq_add_of_le' h
  rfl

theorem targetAt_reserved {n m : Nat} (h : ReservedOffset n m) : targetAt n m = .reserved := by
  unfold targetAt
  rcases h with h | h | h
  · simp (disch := omega) only [if_neg, if_pos, byteTarget_of_three_le]
  · simp (disch := omega) only [if_neg, dif_neg, if_pos]
  · simp (disch := omega) only [if_neg, dif_neg]

/-- A read changes no hardware state (R213). -/
theorem busRead_sameHardware (s : State) (off : Offset) : (s.busRead off).SameHardware s := by
  rcases busRead_cases s off with ⟨_, e⟩ | ⟨_, _, e⟩ | ⟨_, _, e⟩ <;> rw [e] <;> rfl

/-- A read of a reserved offset answers 0, whether or not a command runs (R120). -/
theorem busRead_reserved {s : State} {off : Offset} (halign : off.toNat % 4 = 0) (hw : s.target off = .reserved) :
    (s.busRead off).response = some (.data 0) := by
  rcases busRead_cases s off with ⟨h, _⟩ | ⟨_, _, e⟩ | ⟨_, _, e⟩
  · exact absurd halign h
  · rw [e, hw]; rfl
  · rw [e, hw]; rfl

/-- Settles O14: the map names nothing at a reserved offset, so a read shows 0 and a write while Idle does nothing. -/
theorem reservedOffsetsReadZero : Obligations.ReservedOffsetsReadZero := by
  intro s n v es halign hres
  have hw := targetAt_reserved hres
  have hn : n < 0x10000 := by omega
  exact ⟨⟨_, rfl, busRead_reserved (by rwa [toNat_offset hn]) (target_offset hn hw es),
      busRead_sameHardware { s with events := es } _⟩,
    fun hidle => writesTo_of_idle hidle halign hn hw v, fun hbusy => writesTo_of_busy hbusy halign hn v⟩

/-! ### STATUS (R114, R115) -/

/-- Settles O21: while Idle the write is `writeStatus`, while a command runs it is dropped as every write is. -/
theorem statusWriteClearsDoneAndHz : Obligations.StatusWriteClearsDoneAndHz := by
  intro s v
  have hclear : s.writeStatus v =
      { s with done := if v.getLsbD 1 then false else s.done, hz := if v.getLsbD 4 then false else s.hz } := by
    unfold State.writeStatus
    congr 1 <;> split <;> simp_all
  exact ⟨fun hidle => hclear ▸ writesTo_of_idle (w := .status) hidle rfl (by decide) rfl v,
    fun hbusy => writesTo_of_busy hbusy rfl (by decide) v⟩

/-- A number below 2^i and a multiple of 2^i have no bit in common. -/
theorem or_two_pow_mul {x i : Nat} (h : x < 2 ^ i) (b : Nat) : x ||| 2 ^ i * b = x + 2 ^ i * b := by
  rw [Nat.or_comm, ← Nat.two_pow_add_eq_or_of_lt h, Nat.add_comm]

theorem toNat_flagAt (b : Bool) {i : Nat} (hi : i < 32) : (flagAt b i).toNat = 2 ^ i * b.toNat := by
  have hlt : 2 ^ i < 2 ^ 32 := Nat.pow_lt_pow_right (by decide) hi
  cases b with
  | false => simp [flagAt]
  | true => simpa [flagAt, Nat.shiftLeft_eq] using (show 2 ^ i < 4294967296 from hlt)

/-- STATUS as a number (R114). -/
theorem toNat_statusWord (busy done err kv hz : Bool) (code : BitVec 4) :
    (statusWord busy done err kv hz code).toNat =
      busy.toNat + 2 * done.toNat + 4 * err.toNat + 8 * kv.toNat + 16 * hz.toNat + 256 * code.toNat := by
  have hbusy := busy.toNat_lt
  have hdone := done.toNat_lt
  have herr := err.toNat_lt
  have hkv := kv.toNat_lt
  have hhz := hz.toNat_lt
  have hcode := code.isLt
  have hshift : (code.setWidth 32 <<< 8).toNat = 2 ^ 8 * code.toNat := by
    simp [Nat.shiftLeft_eq]; omega
  simp only [statusWord, BitVec.toNat_or, hshift, toNat_flagAt _ (show 0 < 32 by decide),
    toNat_flagAt _ (show 1 < 32 by decide), toNat_flagAt _ (show 2 < 32 by decide),
    toNat_flagAt _ (show 3 < 32 by decide), toNat_flagAt _ (show 4 < 32 by decide)]
  rw [or_two_pow_mul (i := 1), or_two_pow_mul (i := 2), or_two_pow_mul (i := 3), or_two_pow_mul (i := 4),
    or_two_pow_mul (i := 8)] <;> omega

theorem toNat_errcodeField (e : Option CmdError) : (errcodeField e).toNat = errorNumber e := by
  rcases e with _ | _ | _ <;> rfl

theorem errorNumber_le (e : Option CmdError) : errorNumber e ≤ 6 := by
  rcases e with _ | _ | _ <;> decide

/-- ERR says that ERRCODE is not 0 (R114). -/
theorem err_eq (s : State) : s.err = decide (errorNumber s.errcode ≠ 0) := by
  rw [State.err, ← toNat_errcodeField]
  congr 1
  simp [← BitVec.toNat_inj]

theorem toNat_status_of_idle {s : State} (hidle : s.latch = none) :
    s.status.toNat = 2 * s.done.toNat + 4 * (decide (errorNumber s.errcode ≠ 0)).toNat + 8 * s.kv.toNat +
      16 * s.hz.toNat + 256 * errorNumber s.errcode := by
  have hbusy : s.busy = false := by simp [State.busy, hidle]
  simp [State.status, toNat_statusWord, hbusy, err_eq, toNat_errcodeField]

/-- Settles O22: a read of STATUS shows the word of its fields, and its value is the sum of theirs. -/
theorem statusRegisterFields : Obligations.StatusRegisterFields := by
  intro s hidle
  exact ⟨toNat_status_of_idle hidle ▸ readsAs_of_idle (w := .status) hidle rfl (by decide) rfl, errorNumber_le s.errcode,
    readsAs_of_idle (w := .cmd) hidle rfl (by decide) rfl⟩

/-! ### The operand and result registers (R106, R107, R110, R112, R116) -/

theorem completed_of_exec {i : Instr} {s t : State} (h : exec i s = .next t) : Completed s t := by
  obtain ⟨t', ht', hc⟩ := exec_completed i s
  cases ht'.symm.trans h
  exact hc

/-- An 8-bit register reads zero-extended. -/
theorem toNat_setWidth_byte (b : Byte) : (b.setWidth 32).toNat = b.toNat := by
  have := b.isLt
  simp; omega

theorem lane_zero_eq (v : Word) : lane v 0 = BitVec.ofNat 8 (v.toNat % 256) := by
  apply BitVec.eq_of_toNat_eq
  simp [toNat_lane]

theorem getLsbD_zero_eq (v : Word) : v.getLsbD 0 = decide (v.toNat % 2 = 1) := by
  simp [BitVec.getLsbD, Nat.testBit_zero]

/-- Settles O16: the map names each register at its offset, and a completed command leaves them all as they were. -/
theorem operandRegisters : Obligations.OperandRegisters := by
  refine ⟨fun s hidle v => ?_, fun i s t h => ?_, rfl, rfl, rfl, rfl, rfl, rfl⟩
  · have hread {n : Nat} {w : BusTarget} := readsAs_of_idle (n := n) (w := w) hidle
    have hwrite {n : Nat} {w : BusTarget} := fun ha hn hw => writesTo_of_idle (n := n) (w := w) hidle ha hn hw v
    refine ⟨hread (w := .src) rfl (by decide) rfl, hwrite (w := .src) rfl (by decide) rfl,
      hread (w := .dst) rfl (by decide) rfl, hwrite (w := .dst) rfl (by decide) rfl,
      hread (w := .len) rfl (by decide) rfl, hwrite (w := .len) rfl (by decide) rfl,
      ?_, ?_, ?_, ?_, ?_, ?_⟩
    · exact toNat_setWidth_byte s.opa ▸ hread (w := .opa) rfl (by decide) rfl
    · exact lane_zero_eq v ▸ hwrite (w := .opa) rfl (by decide) rfl
    · exact toNat_setWidth_byte s.opb ▸ hread (w := .opb) rfl (by decide) rfl
    · exact lane_zero_eq v ▸ hwrite (w := .opb) rfl (by decide) rfl
    · have hie : (flagAt s.ie 0).toNat = s.ie.toNat := by simp [toNat_flagAt]
      exact hie ▸ hread (w := .config) rfl (by decide) rfl
    · exact getLsbD_zero_eq v ▸ hwrite (w := .config) rfl (by decide) rfl
  · have hc := completed_of_exec h
    exact ⟨hc.src, hc.dst, hc.len, hc.opa, hc.opb, hc.ie, hc.iv⟩

theorem targetAt_rk (n : Nat) (k : Fin 11) {j : Nat} (hj : j < 4) :
    targetAt n (0x100 + 16 * k.val + 4 * j) = .rk k j := by
  have hk := k.isLt
  have hblock : (0x100 + 16 * k.val + 4 * j - 0x100) / 16 = k.val := by omega
  have hword : (0x100 + 16 * k.val + 4 * j - 0x100) / 4 % 4 = j := by omega
  unfold targetAt
  simp (disch := omega) only [if_neg, dif_pos, hblock, hword, Fin.eta]

/-- What a command leaves in RES: the result of GFMUL, GFDBL, SBOX and INVSBOX, else what it held (R107). -/
def resAfter (s : State) : Instr → Byte
  | .gfmul => gfMul s.opa s.opb
  | .gfdbl => gfDouble s.opa
  | .sbox => sbox s.opa
  | .invsbox => invSbox s.opa
  | _ => s.res

theorem roundCommand_res {s t : State} {rnd : BitVec 4} {f : Block → RoundKeys → Fin 11 → Block}
    (h : s.roundCommand rnd f = .next t) : t.res = s.res := by
  rcases s.roundCommand_cases rnd f with ⟨_, e⟩ | ⟨k, _, e⟩ <;> cases e.symm.trans h <;> simp

theorem exec_res {i : Instr} {s t : State} (h : exec i s = .next t) : t.res = resAfter s i := by
  cases i <;> simp only [exec] at h
  case addroundkey k | encround k | decround k => exact roundCommand_res h
  all_goals simp only [execNop, execKeyld, execKeyexp, execEncblk, execDecblk, execGfmul, execGfdbl, execSbox,
    execInvsbox, execSubbytes, execInvsubbytes, execShiftrows, execInvshiftrows, execMixcolumns, execInvmixcolumns,
    execPad, execUnpad, execCbcenc, execCbcdec, State.succeed, State.raiseError, State.raiseBuffer] at h
  all_goals repeat' split at h
  all_goals cases h; simp [resAfter]

/-- Settles O17: a host write at these offsets is `idleWrite` of a register it leaves alone, and what a command leaves
in RES is `resAfter`. -/
theorem readOnlyRegisters : Obligations.ReadOnlyRegisters := by
  refine ⟨fun s hidle v => ?_, fun i s t h => ?_, by decide, rfl⟩
  · exact ⟨toNat_setWidth_byte s.res ▸ readsAs_of_idle (w := .res) hidle rfl (by decide) rfl,
      writesTo_of_idle (w := .res) hidle rfl (by decide) rfl v,
      readsAs_of_idle (w := .id) hidle rfl (by decide) rfl, writesTo_of_idle (w := .id) hidle rfl (by decide) rfl v,
      readsAs_of_idle (w := .outlen) hidle rfl (by decide) rfl,
      writesTo_of_idle (w := .outlen) hidle rfl (by decide) rfl v,
      fun k j hj => writesTo_of_idle hidle (by omega) (by omega) (targetAt_rk _ k hj) v⟩
  · rw [exec_res h]
    refine ⟨fun e => e ▸ rfl, fun e => e ▸ rfl, fun e => e ▸ rfl, fun e => e ▸ rfl, fun _ _ _ _ => ?_⟩
    cases i <;> simp_all [resAfter]

/-! ### A stale RK (R118, R511, R522) -/

namespace State

/-- The state with KV cleared and RK overwritten, KEY and all else as before. -/
def withStaleKeys (s : State) (rk : RoundKeys) : State := { s with kv := false, rk := rk }

variable (s : State) (rk : RoundKeys)

theorem withStaleKeys_inRange : (s.withStaleKeys rk).inRange = s.inRange := rfl
theorem withStaleKeys_srcAddr : (s.withStaleKeys rk).srcAddr = s.srcAddr := rfl
theorem withStaleKeys_length : (s.withStaleKeys rk).length = s.length := rfl
theorem withStaleKeys_memRead : (s.withStaleKeys rk).memRead = s.memRead := rfl
theorem withStaleKeys_blockError : (s.withStaleKeys rk).blockError = s.blockError := rfl
theorem withStaleKeys_keyldError : (s.withStaleKeys rk).keyldError = s.keyldError := rfl
theorem withStaleKeys_cbcencError : (s.withStaleKeys rk).cbcencError = s.cbcencError := rfl
theorem withStaleKeys_cbcdecError : (s.withStaleKeys rk).cbcdecError = s.cbcdecError := rfl

/-- EnsureRoundKeys makes up for any stale RK (R522). -/
theorem withStaleKeys_ensureRoundKeys {s : State} (hs : s.KeysCurrent) (rk : RoundKeys) :
    (s.withStaleKeys rk).ensureRoundKeys = s.ensureRoundKeys := by
  rw [ensureRoundKeys_of_invalid _ rfl, ensureRoundKeys_eq s, ensureRoundKeys_rk s hs]
  rfl

theorem withStaleKeys_cbcCiphertext {s : State} (hs : s.KeysCurrent) (rk : RoundKeys) :
    (s.withStaleKeys rk).cbcCiphertext = s.cbcCiphertext := by
  rw [cbcCiphertext, withStaleKeys_ensureRoundKeys hs]
  rfl

theorem withStaleKeys_cbcPlaintext {s : State} (hs : s.KeysCurrent) (rk : RoundKeys) :
    (s.withStaleKeys rk).cbcPlaintext = s.cbcPlaintext := by
  rw [cbcPlaintext, withStaleKeys_ensureRoundKeys hs]
  rfl

end State

/-- What a command that leaves o makes of stale round keys: the very same state, where it expands KEY, or the same state
with the keys as stale as they were. -/
def StaleKeysOutcome (rk : RoundKeys) (o o' : Out) : Prop :=
  o' = o ∨ ∃ t, o = .next t ∧ o' = .next (t.withStaleKeys rk)

theorem roundCommand_staleKeys {s : State} (hs : s.KeysCurrent) (rk : RoundKeys) (rnd : BitVec 4)
    (f : Block → RoundKeys → Fin 11 → Block) :
    StaleKeysOutcome rk (s.roundCommand rnd f) ((s.withStaleKeys rk).roundCommand rnd f) := by
  unfold State.roundCommand
  rw [State.withStaleKeys_ensureRoundKeys hs]
  split
  · exact .inr ⟨_, rfl, rfl⟩
  · exact .inl rfl

theorem exec_staleKeys (i : Instr) {s : State} (hs : s.KeysCurrent) (rk : RoundKeys) :
    StaleKeysOutcome rk (exec i s) (exec i (s.withStaleKeys rk)) := by
  cases i <;> simp only [exec]
  case addroundkey k | encround k | decround k => exact roundCommand_staleKeys hs rk k _
  case keyexp => exact .inl rfl
  case encblk | decblk | cbcenc | cbcdec =>
    simp only [execEncblk, execDecblk, execCbcenc, execCbcdec, State.withStaleKeys_blockError,
      State.withStaleKeys_cbcencError, State.withStaleKeys_cbcdecError, State.withStaleKeys_ensureRoundKeys hs,
      State.withStaleKeys_cbcCiphertext hs, State.withStaleKeys_cbcPlaintext hs]
    split
    · exact .inr ⟨_, rfl, rfl⟩
    · exact .inl rfl
  case keyld =>
    simp only [execKeyld, State.withStaleKeys_keyldError]
    split <;> exact .inr ⟨_, rfl, rfl⟩
  case pad =>
    unfold execPad
    rw [State.withStaleKeys_length, State.withStaleKeys_srcAddr, State.withStaleKeys_inRange]
    split <;> exact .inr ⟨_, rfl, rfl⟩
  case unpad =>
    unfold execUnpad
    rw [State.withStaleKeys_length, State.withStaleKeys_srcAddr, State.withStaleKeys_inRange,
      State.withStaleKeys_memRead]
    repeat' split
    all_goals exact .inr ⟨_, rfl, rfl⟩
  -- what is left neither reads the keys nor checks anything
  all_goals exact .inr ⟨_, rfl, rfl⟩

/-- Settles O45: a command leaves the same state, or one that differs in KV and RK only. -/
theorem staleRoundKeysNeverMatter : Obligations.StaleRoundKeysNeverMatter := by
  intro i s t rk hs h
  have hstale : (s.withStaleKeys rk).KeysCurrent := keysCurrent_of_invalid rfl
  rcases exec_staleKeys i hs rk with e | ⟨u, hu, e⟩
  · rw [h] at e
    exact ⟨t, e, rfl, (exec_dataEffect e).keys.keysCurrent hstale⟩
  · cases hu.symm.trans h
    exact ⟨_, e, rfl, keysCurrent_of_invalid rfl⟩

end Sys2Proof.Machine
end

section
/-! PROOFS. The bus by alignment and its byte lanes, who changes the hardware while Idle, what the buffer commands leave
unchanged, and what of BUF a command reads (O12, O13, O15, O43, O44). -/

namespace Sys2Proof.Machine

/-! ### A host request is one step (R210 to R213, R841) -/

theorem step_read {s : State} {off : Offset} {es : List Event} (h : s.events = .bus (.read off) :: es) :
    step s = .next (State.busRead { s with events := es } off) := by
  unfold step
  rw [h]
  rfl

/-- Settles O13: `busRead_cases` and `busWrite_cases`, by the alignment of the offset. -/
theorem busAnswersByAlignment : Obligations.BusAnswersByAlignment := by
  intro s off v es
  have hread := busRead_cases { s with events := es } off
  have hwrite := busWrite_cases { s with events := es } off v
  refine ⟨fun hmis => ⟨?_, ?_⟩, fun halign => ⟨?_, ?_⟩⟩
  · obtain ⟨_, e⟩ | ⟨halign, _⟩ | ⟨halign, _⟩ := hread
    · exact congrArg Host.Outcome.next e
    all_goals exact absurd halign hmis
  · obtain ⟨_, e⟩ | ⟨halign, _⟩ | ⟨halign, _⟩ := hwrite
    · exact congrArg Host.Outcome.next e
    all_goals exact absurd halign hmis
  · obtain ⟨hmis, _⟩ | ⟨_, _, e⟩ | ⟨_, _, e⟩ := hread
    · exact absurd halign hmis
    all_goals exact ⟨_, _, congrArg Host.Outcome.next e, rfl⟩
  · obtain ⟨hmis, _⟩ | ⟨_, _, e⟩ | ⟨_, _, e⟩ := hwrite
    · exact absurd halign hmis
    all_goals exact ⟨_, congrArg Host.Outcome.next e, rfl⟩

/-- Settles O12: of the cases of a step, the idle core's turn and a read are left, and a read changes no hardware. -/
theorem idleHardwareKeepsItsState : Obligations.IdleHardwareKeepsItsState := by
  refine ⟨fun s t hidle hwrite hreset h => ?_, fun s t off es he h => ?_⟩
  · obtain ⟨es, _, _, rfl⟩ | ⟨es, v, _, hl, _⟩ | ⟨es, he, _⟩ | ⟨es, off, _, rfl⟩ | ⟨es, off, v, he, _⟩ := step_cases h
    · rfl
    · simp [hidle] at hl
    · exact absurd he (hreset es)
    · exact (busRead_sameHardware { s with events := es } off).symm
    · exact absurd he (hwrite off v es)
  · cases (step_read he).symm.trans h
    exact (busRead_sameHardware { s with events := es } off).symm

/-! ### The byte lanes of the bus (R220) -/

/-- Lane r of a word of byte lanes is its byte r. -/
theorem laneOf_wordOfLanes (b : Nat → Byte) {r : Nat} (hr : r < 4) :
    laneOf (wordOfLanes (b 0) (b 1) (b 2) (b 3)) r = (b r).toNat := by
  have h0 := (b 0).isLt
  have h1 := (b 1).isLt
  have h2 := (b 2).isLt
  have h3 := (b 3).isLt
  simp only [laneOf, toNat_wordOfLanes]
  interval_cases r <;> omega

theorem cell_eq_getElem (X : Block) {r j : Nat} (hr : r < 4) (hj : j < 4) : cell X r j = X[4 * j + r] := by
  have e : r % 4 + 4 * (j % 4) = 4 * j + r := by omega
  simp only [cell, e]

/-- A word of a 16-byte register as a number. -/
theorem toNat_blockWord (X : Block) {j : Nat} (hj : j < 4) : (blockWord X j).toNat = wordValue X j hj := by
  simp only [blockWord, toNat_wordOfLanes, cell_eq_getElem X (show 0 < 4 by decide) hj,
    cell_eq_getElem X (show 1 < 4 by decide) hj, cell_eq_getElem X (show 2 < 4 by decide) hj,
    cell_eq_getElem X (show 3 < 4 by decide) hj]
  rfl

theorem wordReplaced_setBlockWord (X : Block) (j : Nat) (v : Word) : WordReplaced X (setBlockWord X j v) j v := by
  intro k
  have hcell : cell X (k.val % 4) (k.val / 4) = X[k] := by
    rw [cell_eq_getElem X (by omega) (by omega)]
    congr 1
    omega
  simp only [setBlockWord, Fin.getElem_fin, getElem_blockOfCells]
  split
  · exact toNat_lane v _
  · exact congrArg BitVec.toNat hcell

section offsets

variable (n : Nat) {j : Nat} (hj : j < 4)
include hj

theorem targetAt_key : targetAt n (0x020 + 4 * j) = .key j := by
  have hword : (0x020 + 4 * j - 0x020) / 4 = j := by omega
  unfold targetAt
  simp (disch := omega) only [if_neg, if_pos, hword]

theorem targetAt_iv : targetAt n (0x030 + 4 * j) = .iv j := by
  have hword : (0x030 + 4 * j - 0x030) / 4 = j := by omega
  unfold targetAt
  simp (disch := omega) only [if_neg, if_pos, hword]

theorem targetAt_state : targetAt n (0x040 + 4 * j) = .state j := by
  have hword : (0x040 + 4 * j - 0x040) / 4 = j := by omega
  unfold targetAt
  simp (disch := omega) only [if_neg, if_pos, hword]

end offsets

theorem targetAt_buf {n a : Nat} (ha : a < n) : targetAt n (0x1000 + a) = .buf a := by
  unfold targetAt
  simp (disch := omega) only [if_neg, dif_neg, if_pos, Nat.add_sub_cancel_left]

/-- A write to a BUF word replaces its four bytes by the lanes of the word, and no other byte. -/
theorem toNat_bufByte_writeBufWord (s : State) (a : Nat) (v : Word) (x : Nat) :
    ((s.writeBufWord a v).bufByte x).toNat = if a ≤ x ∧ x < a + 4 then laneOf v (x - a) else (s.bufByte x).toNat := by
  have hlane {k : Nat} (hk : k < 4) : ([lane v 0, lane v 1, lane v 2, lane v 3].getD k 0).toNat = laneOf v k := by
    interval_cases k <;> exact toNat_lane v _
  rw [State.writeBufWord, State.bufByte_memWrite, List.length_cons, List.length_cons, List.length_cons,
    List.length_singleton]
  split
  · exact hlane (by omega)
  · rfl

/-- Settles O15: the map names each word at its offset, a read shows the word of its lanes, and a write stores them. -/
theorem byteLanesOfTheBus : Obligations.ByteLanesOfTheBus := by
  refine ⟨fun X r j hr hj => ⟨cell_eq_getElem X hr hj, laneOf_wordOfLanes (fun r => cell X r j) hr⟩,
    fun s hidle => ⟨fun j hj => ?_, fun hleg a halign hfit => ?_⟩⟩
  · have hreg {n : Nat} {w : BusTarget} {X : Block} (hX : s.idleRead w = blockWord X j) (ha : n % 4 = 0)
        (hn : n < 0x10000) (hw : targetAt s.config.bufSize n = w) : ReadsAs s n (wordValue X j hj) := by
      rw [← toNat_blockWord X hj, ← hX]
      exact readsAs_of_idle hidle ha hn hw
    refine ⟨hreg rfl (by omega) (by omega) (targetAt_key _ hj), hreg rfl (by omega) (by omega) (targetAt_iv _ hj),
      hreg rfl (by omega) (by omega) (targetAt_state _ hj),
      fun k => hreg rfl (by omega) (by omega) (targetAt_rk _ k hj), fun v => ⟨?_, ?_, ?_⟩⟩
    · exact ⟨_, wordReplaced_setBlockWord s.key j v,
        writesTo_of_idle hidle (by omega) (by omega) (targetAt_key _ hj) v⟩
    · exact ⟨_, wordReplaced_setBlockWord s.iv j v,
        writesTo_of_idle hidle (by omega) (by omega) (targetAt_iv _ hj) v⟩
    · exact ⟨_, wordReplaced_setBlockWord s.state j v,
        writesTo_of_idle hidle (by omega) (by omega) (targetAt_state _ hj) v⟩
  · obtain ⟨_, _, hmax⟩ := of_decide_eq_true hleg
    have hw : targetAt s.config.bufSize (0x1000 + a) = .buf a := targetAt_buf (by omega)
    have hword : (s.idleRead (.buf a)).toNat =
        laneValue (s.bufByte a) (s.bufByte (a + 1)) (s.bufByte (a + 2)) (s.bufByte (a + 3)) := toNat_wordOfLanes _ _ _ _
    exact ⟨hword ▸ readsAs_of_idle hidle (by omega) (by omega) hw,
      fun v => ⟨_, writesTo_of_idle hidle (by omega) (by omega) hw v, toNat_bufByte_writeBufWord s a v⟩⟩

/-! ### What the buffer commands leave unchanged (R203, R204, R302) -/

/-- A command leaves every byte of BUF outside its output region as it was (R204). -/
theorem exec_bufByte_outside {i : Instr} {s t : State} (h : exec i s = .next t) {a : Nat}
    (ha : ¬ Inside (outputRegion s i) a) : t.bufByte a = s.bufByte a := by
  have hdraw := (completed_of_exec h).bufDraw
  rcases (exec_dataEffect h).buf with hbuf | ⟨_, vs, hlen, hbuf⟩
  · exact State.bufByte_congr hbuf hdraw a
  · rw [State.bufByte_of_storeBytes hbuf hdraw, hlen, if_neg ha]

/-- t is s with nothing changed but the completion fields, STATE, OUTLEN, RK, KV and BUF. -/
def BlockFrame (s t : State) : Prop :=
  t = onlyStatus { s with state := t.state, outlen := t.outlen, rk := t.rk, kv := t.kv, buf := t.buf } t.errcode

theorem putBlock_frame (s : State) (B : Block) : BlockFrame s ((s.ensureRoundKeys.putBlock B).complete none) := by
  rw [State.putBlock_eq]
  rfl

theorem putChain_frame (s : State) (v : List Byte) (l : Nat) (e : Option CmdError) :
    BlockFrame s (((s.ensureRoundKeys.putChain v).setOutlen l).complete e) := by
  rw [State.putChain_eq]
  rfl

theorem raiseBuffer_frame {s t : State} {e : CmdError} (h : s.raiseBuffer e = .next t) : BlockFrame s t := by
  cases h
  rfl

theorem exec_blockFrame {i : Instr} (hi : i = .encblk ∨ i = .decblk ∨ i = .cbcenc ∨ i = .cbcdec) {s t : State}
    (h : exec i s = .next t) : BlockFrame s t := by
  cases i <;> simp only [reduceCtorEq, or_self] at hi <;> simp only [exec] at h
  case encblk | decblk =>
    simp only [execEncblk, execDecblk] at h
    split at h
    · exact raiseBuffer_frame h
    · cases h
      exact putBlock_frame s _
  case cbcenc =>
    unfold execCbcenc at h
    split at h
    · exact raiseBuffer_frame h
    · cases h
      exact putChain_frame s _ _ _
  case cbcdec =>
    unfold execCbcdec at h
    split at h
    · exact raiseBuffer_frame h
    · split at h <;> cases h <;> exact putChain_frame s _ _ _

/-- The registers PAD leaves alone. -/
theorem execPad_frame {s t : State} (h : execPad s = .next t) :
    t = onlyStatus { s with outlen := t.outlen, buf := t.buf } t.errcode := by
  unfold execPad at h
  split at h <;> cases h <;> rfl

/-- The registers UNPAD leaves alone, BUF among them. -/
theorem execUnpad_frame {s t : State} (h : execUnpad s = .next t) :
    t = onlyStatus { s with outlen := t.outlen } t.errcode := by
  unfold execUnpad at h
  repeat' split at h
  all_goals cases h; rfl

/-- Settles O43: the registers by the three frames above, the bytes of BUF by `exec_bufByte_outside`. -/
theorem storingCommandFrame : Obligations.StoringCommandFrame := by
  intro i s t h
  refine ⟨fun hi => ⟨exec_blockFrame hi h, fun a => exec_bufByte_outside h⟩, ?_, ?_⟩
  · rintro rfl
    exact ⟨execPad_frame h, fun a => exec_bufByte_outside h⟩
  · rintro rfl
    have hempty (a : Nat) : ¬ Inside (outputRegion s .unpad) a := by simp [outputRegion]
    exact ⟨execUnpad_frame h, fun a => exec_bufByte_outside h (hempty a)⟩

/-! ### A command on another BUF (R203 to R205) -/

namespace State

/-- The state with BUF replaced by the list m over the draw d. -/
def withBuffer (s : State) (m : Memory) (d : Nat) : State := { s with buf := m, bufDraw := d }

variable (s : State) (m : Memory) (d : Nat)

theorem withBuffer_inRange : (s.withBuffer m d).inRange = s.inRange := rfl
theorem withBuffer_srcAddr : (s.withBuffer m d).srcAddr = s.srcAddr := rfl
theorem withBuffer_length : (s.withBuffer m d).length = s.length := rfl
theorem withBuffer_blockError : (s.withBuffer m d).blockError = s.blockError := rfl
theorem withBuffer_keyldError : (s.withBuffer m d).keyldError = s.keyldError := rfl
theorem withBuffer_cbcencError : (s.withBuffer m d).cbcencError = s.cbcencError := rfl
theorem withBuffer_cbcdecError : (s.withBuffer m d).cbcdecError = s.cbcdecError := rfl

theorem bufByte_withBuffer_storeBytes (x : Nat) (vs : List Byte) (a : Nat) :
    (s.withBuffer (storeBytes m x vs) d).bufByte a =
      if x ≤ a ∧ a < x + vs.length then vs.getD (a - x) 0 else (s.withBuffer m d).bufByte a :=
  bufByte_memWrite (s.withBuffer m d) x vs a

/-- EnsureRoundKeys neither reads nor writes BUF (R522). -/
theorem withBuffer_ensureRoundKeys :
    (s.withBuffer m d).ensureRoundKeys = s.ensureRoundKeys.withBuffer m d := by
  cases hkv : s.kv with
  | true => rw [ensureRoundKeys_of_valid (s.withBuffer m d) hkv, ensureRoundKeys_of_valid s hkv]
  | false =>
    rw [ensureRoundKeys_of_invalid (s.withBuffer m d) hkv, ensureRoundKeys_of_invalid s hkv]
    rfl

theorem withBuffer_ensureRoundKeys_rk : (s.withBuffer m d).ensureRoundKeys.rk = s.ensureRoundKeys.rk := by
  rw [withBuffer_ensureRoundKeys]
  rfl

/-- The writes of ENCBLK and DECBLK are the same on any BUF. -/
theorem withBuffer_putBlock (B : Block) :
    (s.withBuffer m d).ensureRoundKeys.putBlock B =
      (s.ensureRoundKeys.putBlock B).withBuffer (storeBytes m s.dstAddr B.toList) d := by
  rw [putBlock_eq, putBlock_eq, withBuffer_ensureRoundKeys]
  rfl

/-- The writes of CBCENC and CBCDEC are the same on any BUF. -/
theorem withBuffer_putChain (v : List Byte) :
    (s.withBuffer m d).ensureRoundKeys.putChain v =
      (s.ensureRoundKeys.putChain v).withBuffer (storeBytes m s.dstAddr v) d := by
  rw [putChain_eq, putChain_eq, withBuffer_ensureRoundKeys]
  rfl

section agreement

variable {s m d}

theorem withBuffer_memRead {n : Nat} (h : ∀ a, Inside (s.srcAddr, n) a → (s.withBuffer m d).bufByte a = s.bufByte a) :
    (s.withBuffer m d).memRead s.srcAddr n = s.memRead s.srcAddr n :=
  memRead_congr fun a hlo hhi => h a ⟨hlo, hhi⟩

variable (h : ∀ a, Inside (s.srcAddr, s.length) a → (s.withBuffer m d).bufByte a = s.bufByte a)
include h

theorem withBuffer_cbcCiphertext : (s.withBuffer m d).cbcCiphertext = s.cbcCiphertext := by
  rw [cbcCiphertext, withBuffer_srcAddr, withBuffer_length, withBuffer_memRead h, withBuffer_ensureRoundKeys]
  rfl

theorem withBuffer_cbcPlaintext : (s.withBuffer m d).cbcPlaintext = s.cbcPlaintext := by
  rw [cbcPlaintext, withBuffer_srcAddr, withBuffer_length, withBuffer_memRead h, withBuffer_ensureRoundKeys]
  rfl

end agreement

end State

/-- A command that ends with e has stored its result: it met no error, or it is CBCDEC with a Padding error (R830 (d)). -/
abbrev HasStored (i : Instr) (e : Option CmdError) : Prop := e = none ∨ i = .cbcdec ∧ e = some .padding

/-- What command i of s makes of another BUF: the same registers, and either the very same bytes stored, which fill its
output region, or an error with nothing stored. -/
inductive BufferOutcome (i : Instr) (s : State) (m : Memory) (d : Nat) : Out → Out → Prop where
  | stored {t : State} {a : Nat} {vs : List Byte} (hr : outputRegion s i = (a, vs.length))
      (hbuf : t.buf = storeBytes s.buf a vs) :
      BufferOutcome i s m d (.next t) (.next (t.withBuffer (storeBytes m a vs) d))
  | failed {t : State} (hfail : ¬ HasStored i t.errcode) :
      BufferOutcome i s m d (.next t) (.next (t.withBuffer m d))

section bufferOutcome

variable {i : Instr} {s : State} {m : Memory} {d : Nat}

/-- A command with no output region stores nothing. -/
theorem BufferOutcome.storesNothing (hr : outputRegion s i = (0, 0)) {t : State} (hbuf : t.buf = s.buf) :
    BufferOutcome i s m d (.next t) (.next (t.withBuffer m d)) :=
  .stored (vs := []) hr hbuf

theorem BufferOutcome.raiseBuffer {e : CmdError} (hi : i ≠ .cbcdec ∨ e ≠ .padding) :
    BufferOutcome i s m d (s.raiseBuffer e) ((s.withBuffer m d).raiseBuffer e) := by
  refine .failed ?_
  rintro (h | ⟨h, he⟩)
  · cases h
  · exact hi.elim (absurd h) (absurd (Option.some.inj he))

theorem roundCommand_bufferOutcome (hr : outputRegion s i = (0, 0)) (rnd : BitVec 4)
    (f : Block → RoundKeys → Fin 11 → Block) :
    BufferOutcome i s m d (s.roundCommand rnd f) ((s.withBuffer m d).roundCommand rnd f) := by
  unfold State.roundCommand
  rw [State.withBuffer_ensureRoundKeys]
  split
  · exact .storesNothing hr rfl
  · exact .storesNothing hr (by simp)

theorem putBlock_bufferOutcome (hr : outputRegion s i = (s.dstAddr, 16)) (B : Block) :
    BufferOutcome i s m d (s.ensureRoundKeys.putBlock B).succeed
      ((s.withBuffer m d).ensureRoundKeys.putBlock B).succeed := by
  rw [State.withBuffer_putBlock]
  exact .stored (by simp [hr]) (by simp [State.dstAddr])

theorem putChain_bufferOutcome {n : Nat} (hr : outputRegion s i = (s.dstAddr, n)) {v : List Byte} (hv : v.length = n)
    (l : Nat) (e : Option CmdError) :
    BufferOutcome i s m d (.next (((s.ensureRoundKeys.putChain v).setOutlen l).complete e))
      (.next ((((s.withBuffer m d).ensureRoundKeys.putChain v).setOutlen l).complete e)) := by
  rw [State.withBuffer_putChain]
  exact .stored (by rw [hr, hv]) (by simp [State.dstAddr])

/-- The checks CBCDEC makes before it decrypts report no Padding error (R820). -/
theorem cbcdecError_ne_padding (s : State) : s.cbcdecError ≠ some .padding := by
  unfold State.cbcdecError
  split
  · simp
  · rcases s.regionError_cases s.length s.length with h | h | h <;> simp [h]

theorem exec_bufferOutcome (h : ∀ a, Inside (inputRegion s i) a → (s.withBuffer m d).bufByte a = s.bufByte a) :
    BufferOutcome i s m d (exec i s) (exec i (s.withBuffer m d)) := by
  cases i <;> simp only [exec]
  case addroundkey k | encround k | decround k => exact roundCommand_bufferOutcome rfl k _
  case keyld =>
    simp only [execKeyld, State.readBlock, State.withBuffer_keyldError, State.withBuffer_srcAddr,
      State.withBuffer_memRead h]
    split <;> exact .storesNothing rfl rfl
  case encblk | decblk =>
    simp only [execEncblk, execDecblk, State.readBlock, State.withBuffer_blockError, State.withBuffer_srcAddr,
      State.withBuffer_memRead h]
    split
    · exact .raiseBuffer (.inl nofun)
    · rw [State.withBuffer_ensureRoundKeys_rk]
      exact putBlock_bufferOutcome rfl _
  case pad =>
    unfold execPad
    rw [State.withBuffer_length, State.withBuffer_srcAddr, State.withBuffer_inRange]
    split
    · exact .raiseBuffer (.inl nofun)
    · exact .stored (vs := padBytes s.length) (by simp [outputRegion, padBytes]) rfl
  case unpad =>
    have hmem : (s.withBuffer m d).memRead s.srcAddr s.length = s.memRead s.srcAddr s.length :=
      State.withBuffer_memRead h
    unfold execUnpad
    rw [State.withBuffer_length, State.withBuffer_srcAddr, State.withBuffer_inRange, hmem]
    repeat' split
    all_goals exact .storesNothing rfl rfl
  case cbcenc =>
    simp only [execCbcenc, State.withBuffer_cbcencError, State.withBuffer_cbcCiphertext h, State.withBuffer_length]
    split
    · exact .raiseBuffer (.inl nofun)
    · exact putChain_bufferOutcome rfl s.length_cbcCiphertext _ _
  case cbcdec =>
    simp only [execCbcdec, State.withBuffer_cbcdecError, State.withBuffer_cbcPlaintext h]
    split
    · next he => exact .raiseBuffer (.inr fun hp => cbcdecError_ne_padding s (hp ▸ he))
    · next he =>
      obtain ⟨_, hmod, _⟩ := s.cbcdecError_eq_none.mp he
      split <;> exact putChain_bufferOutcome rfl (s.length_cbcPlaintext hmod) _ _
  -- what is left neither reads nor writes BUF
  all_goals exact .storesNothing rfl (by simp)

end bufferOutcome

/-- Settles O44: a command that stores stores the same bytes, and all else it leaves but BUF is the same. -/
theorem commandReadsOnlyItsRegion : Obligations.CommandReadsOnlyItsRegion := by
  intro i s t m d hagree h
  have hdraw := (completed_of_exec h).bufDraw
  have hout := exec_bufferOutcome hagree
  rw [h] at hout
  generalize ho : exec i (s.withBuffer m d) = o at hout
  cases hout with
  | @stored _ a vs hr hbuf =>
    refine ⟨_, ho, rfl, fun _ x hx => ?_⟩
    rw [hr] at hx
    rw [State.bufByte_of_storeBytes hbuf hdraw, State.bufByte_withBuffer_storeBytes, if_pos hx, if_pos hx]
  | failed hfail => exact ⟨_, ho, rfl, fun hst => absurd hst hfail⟩

end Sys2Proof.Machine
end

section
/-! PROOFS. The decoder as the inverse of the encoder (O1 to O4), and what the commands that store nothing into BUF
leave unchanged (O41, O42). -/

namespace Sys2Proof.Machine

/-! ### The fields of a word (R300) -/

theorem toNat_opcField (v : Word) : (opcField v).toNat = v.toNat % 256 := by
  simp [opcField]

theorem toNat_rndField (v : Word) : (rndField v).toNat = v.toNat / 256 % 16 := by
  simp [rndField, Nat.shiftRight_eq_div_pow]

theorem toNat_rsvField (v : Word) : (rsvField v).toNat = v.toNat / 4096 := by
  have hv := v.isLt
  rw [rsvField, BitVec.extractLsb'_toNat, Nat.shiftRight_eq_div_pow, Nat.mod_eq_of_lt]
  omega

theorem rsvField_eq_zero (v : Word) : rsvField v = 0 ↔ v.toNat / 4096 = 0 := by
  rw [← toNat_rsvField, BitVec.toNat_eq]
  rfl

theorem rndField_eq_zero (v : Word) : rndField v = 0 ↔ v.toNat / 256 % 16 = 0 := by
  rw [← toNat_rndField, BitVec.toNat_eq]
  rfl

theorem legalRound_rndField (v : Word) : legalRound (rndField v) = true ↔ v.toNat / 256 % 16 ≤ 10 := by
  rw [← toNat_rndField]
  exact decide_eq_true_iff

/-- The three fields make up the whole word. -/
theorem word_eq_of_fields {v w : Word} (hrsv : rsvField v = rsvField w) (hrnd : rndField v = rndField w)
    (hopc : opcField v = opcField w) : v = w := by
  rw [BitVec.toNat_eq, toNat_rsvField, toNat_rsvField] at hrsv
  rw [BitVec.toNat_eq, toNat_rndField, toNat_rndField] at hrnd
  rw [BitVec.toNat_eq, toNat_opcField, toNat_opcField] at hopc
  apply BitVec.eq_of_toNat_eq
  omega

section encode_fields

open Sys2Proof.Laws

theorem encode_fields (i : Instr) : EncodedFields.Statement i := by
  cases i
  exacts [EncodedFields.nop, EncodedFields.keyld, EncodedFields.keyexp, EncodedFields.encblk, EncodedFields.decblk,
    EncodedFields.gfmul, EncodedFields.gfdbl, EncodedFields.sbox, EncodedFields.invsbox, EncodedFields.subbytes,
    EncodedFields.invsubbytes, EncodedFields.shiftrows, EncodedFields.invshiftrows, EncodedFields.mixcolumns,
    EncodedFields.invmixcolumns, EncodedFields.addroundkey _, EncodedFields.encround _, EncodedFields.decround _,
    EncodedFields.pad, EncodedFields.unpad, EncodedFields.cbcenc, EncodedFields.cbcdec]

end encode_fields

/-! ### The two halves of the opcode map (R303) -/

theorem wellFormed_eq_legalRound (i : Instr) : i.wellFormed = legalRound (roundOf i) := by
  cases i <;> rfl

theorem roundOf_of_plain {i : Instr} (h : ¬ RoundOpcode (opcodeOf i).toNat) : roundOf i = 0 := by
  cases i
  case addroundkey k | encround k | decround k => exact absurd h (by simp [opcodeOf])
  all_goals rfl

theorem roundOpcode_eq_some {b : Byte} {k : BitVec 4} {i : Instr} :
    roundOpcode b k = some i ↔ RoundOpcode b.toNat ∧ opcodeOf i = b ∧ roundOf i = k := by
  constructor
  · intro h
    unfold roundOpcode at h
    split at h <;> cases h
    all_goals rename_i hb; exact ⟨by simp [RoundOpcode, hb], BitVec.eq_of_toNat_eq hb.symm, rfl⟩
  · rintro ⟨h, rfl, rfl⟩
    cases i
    case addroundkey k | encround k | decround k => rfl
    all_goals exact absurd h (by decide)

theorem plainOpcode_eq_some {b : Byte} {i : Instr} :
    plainOpcode b = some i ↔ ¬ RoundOpcode b.toNat ∧ opcodeOf i = b := by
  constructor
  · intro h
    unfold plainOpcode at h
    split at h <;> cases h
    all_goals rename_i hb; exact ⟨by simp [RoundOpcode, hb], BitVec.eq_of_toNat_eq hb.symm⟩
  · rintro ⟨h, rfl⟩
    cases i
    case addroundkey k | encround k | decround k => exact absurd h (by simp [opcodeOf])
    all_goals rfl

theorem roundOpcode_eq_none {b : Byte} {k : BitVec 4} : roundOpcode b k = none ↔ ¬ RoundOpcode b.toNat := by
  unfold roundOpcode
  split <;> simp only [RoundOpcode, reduceCtorEq, false_iff, true_iff, imp_false] at * <;> omega

theorem plainOpcode_eq_none {b : Byte} : plainOpcode b = none ↔ RoundOpcode b.toNat ∨ UnassignedOpcode b.toNat := by
  unfold plainOpcode
  split <;> simp only [RoundOpcode, UnassignedOpcode, reduceCtorEq, false_iff, true_iff, imp_false] at * <;> omega

/-! ### What the decoder answers (R304) -/

theorem decode_of_reserved {v : Word} (h : rsvField v ≠ 0) : decode v = .error .reservedBits := by
  rw [decode, if_pos h]

theorem decode_of_round {v : Word} {i : Instr} (hrsv : rsvField v = 0)
    (h : roundOpcode (opcField v) (rndField v) = some i) :
    decode v = if legalRound (rndField v) then .ok i else .error .roundOutOfRange := by
  simp [decode, hrsv, h]

theorem decode_of_plain {v : Word} {i : Instr} (hrsv : rsvField v = 0) (h : plainOpcode (opcField v) = some i) :
    decode v = if rndField v = 0 then .ok i else .error .roundNotZero := by
  obtain ⟨hplain, _⟩ := plainOpcode_eq_some.mp h
  simp [decode, hrsv, h, roundOpcode_eq_none.mpr hplain]

theorem decode_of_unassigned {v : Word} (hrsv : rsvField v = 0) (hround : roundOpcode (opcField v) (rndField v) = none)
    (hplain : plainOpcode (opcField v) = none) : decode v = .error .unknownOpcode := by
  simp [decode, hrsv, hround, hplain]

/-- A word with the fields of a well-formed command decodes to it. -/
theorem decode_of_fields {v : Word} {i : Instr} (hrsv : rsvField v = 0) (hrnd : rndField v = roundOf i)
    (hopc : opcField v = opcodeOf i) (hi : i.wellFormed = true) : decode v = .ok i := by
  by_cases hclass : RoundOpcode (opcField v).toNat
  · have hlegal : legalRound (rndField v) = true := by rwa [hrnd, ← wellFormed_eq_legalRound]
    rw [decode_of_round hrsv (roundOpcode_eq_some.mpr ⟨hclass, hopc.symm, hrnd.symm⟩), if_pos hlegal]
  · have hzero : rndField v = 0 := hrnd.trans (roundOf_of_plain (hopc ▸ hclass))
    rw [decode_of_plain hrsv (plainOpcode_eq_some.mpr ⟨hclass, hopc.symm⟩), if_pos hzero]

/-- A word that decodes to a command has the command's fields, and its round number is legal. -/
theorem fields_of_decode {v : Word} {i : Instr} (h : decode v = .ok i) :
    rsvField v = 0 ∧ rndField v = roundOf i ∧ opcField v = opcodeOf i ∧ i.wellFormed = true := by
  rw [wellFormed_eq_legalRound]
  rcases ne_or_eq (rsvField v) 0 with hrsv | hrsv
  · rw [decode_of_reserved hrsv] at h
    cases h
  cases hround : roundOpcode (opcField v) (rndField v) with
  | some j =>
    obtain ⟨_, hopc, hrnd⟩ := roundOpcode_eq_some.mp hround
    rw [decode_of_round hrsv hround] at h
    split at h <;> cases h
    next hlegal => exact ⟨hrsv, hrnd.symm, hopc.symm, hrnd ▸ hlegal⟩
  | none =>
    cases hplain : plainOpcode (opcField v) with
    | some j =>
      obtain ⟨hclass, hopc⟩ := plainOpcode_eq_some.mp hplain
      rw [decode_of_plain hrsv hplain] at h
      split at h <;> cases h
      next hzero =>
        have hround0 : roundOf i = 0 := roundOf_of_plain (hopc ▸ hclass)
        exact ⟨hrsv, hzero.trans hround0.symm, hopc.symm, hround0 ▸ rfl⟩
    | none =>
      rw [decode_of_unassigned hrsv hround hplain] at h
      cases h

/-- Settles O2: the fields of a command's word are the command's, and `decode` looks at nothing else. -/
theorem decodeOfEncodeIsTheCommand : Obligations.DecodeOfEncodeIsTheCommand := by
  intro i hi
  obtain ⟨hrsv, hrnd, hopc, _⟩ := encode_fields i
  exact decode_of_fields hrsv hrnd hopc hi

/-- Settles O3: the word and the encoding agree in all three fields. -/
theorem decodedWordIsItsEncoding : Obligations.DecodedWordIsItsEncoding := by
  intro v i h
  obtain ⟨hrsv, hrnd, hopc, hi⟩ := fields_of_decode h
  obtain ⟨hrsv', hrnd', hopc', _⟩ := encode_fields i
  exact ⟨word_eq_of_fields (hrsv'.trans hrsv.symm) (hrnd'.trans hrnd.symm) (hopc'.trans hopc.symm), hi⟩

/-- Settles O1: the words of the table, the three rows with a round number for each k, by evaluation. -/
theorem opcodeMapDecodes : Obligations.OpcodeMapDecodes := by
  unfold Obligations.OpcodeMapDecodes
  decide

/-! ### The illegal words (R305, R811) -/

/-- The kinds of R305, read from the fields of the word. -/
theorem illegalWord_iff_fields (v : Word) :
    IllegalWord v ↔ rsvField v ≠ 0 ∨ UnassignedOpcode (opcField v).toNat ∨
      (RoundOpcode (opcField v).toNat ∧ ¬ legalRound (rndField v) = true) ∨
      (¬ RoundOpcode (opcField v).toNat ∧ rndField v ≠ 0) := by
  rw [Ne, rsvField_eq_zero, Ne, rndField_eq_zero, legalRound_rndField, toNat_opcField, not_le]

theorem illegalWord_iff (v : Word) : IllegalWord v ↔ ∃ e, decode v = .error e := by
  rw [illegalWord_iff_fields]
  rcases ne_or_eq (rsvField v) 0 with hrsv | hrsv
  · exact iff_of_true (.inl hrsv) ⟨_, decode_of_reserved hrsv⟩
  cases hround : roundOpcode (opcField v) (rndField v) with
  | some i =>
    obtain ⟨hclass, _⟩ := roundOpcode_eq_some.mp hround
    have hassigned : ¬ UnassignedOpcode (opcField v).toNat := by omega
    rw [decode_of_round hrsv hround]
    split
    · next hlegal => simp [hrsv, hclass, hassigned, hlegal]
    · next hlegal => exact iff_of_true (.inr (.inr (.inl ⟨hclass, hlegal⟩))) ⟨_, rfl⟩
  | none =>
    have hclass := roundOpcode_eq_none.mp hround
    cases hplain : plainOpcode (opcField v) with
    | some i =>
      have hassigned : ¬ UnassignedOpcode (opcField v).toNat := fun h => by
        simp [plainOpcode_eq_none.mpr (.inr h)] at hplain
      rw [decode_of_plain hrsv hplain]
      split
      · next hzero => simp [hrsv, hclass, hassigned, hzero]
      · next hzero => exact iff_of_true (.inr (.inr (.inr ⟨hclass, hzero⟩))) ⟨_, rfl⟩
    | none =>
      have hun := (plainOpcode_eq_none.mp hplain).resolve_left hclass
      exact iff_of_true (.inr (.inl hun)) ⟨_, decode_of_unassigned hrsv hround hplain⟩

/-! ### IllegalCommand is the error of no legal command (R811) -/

theorem regionError_ne_illegal (s : State) (n m : Nat) : s.regionError n m ≠ some .illegalCommand := by
  rcases s.regionError_cases n m with h | h | h <;> simp [h]

theorem keyldError_ne_illegal (s : State) : s.keyldError ≠ some .illegalCommand := by
  unfold State.keyldError
  split_ifs <;> simp

theorem blockError_ne_illegal (s : State) : s.blockError ≠ some .illegalCommand := by
  unfold State.blockError
  split
  · simp
  · exact regionError_ne_illegal s 16 16

theorem cbcdecError_ne_illegal (s : State) : s.cbcdecError ≠ some .illegalCommand := by
  unfold State.cbcdecError
  split
  · simp
  · exact regionError_ne_illegal s s.length s.length

theorem roundCommand_ne_illegal {s t : State} {k : BitVec 4} {f : Block → RoundKeys → Fin 11 → Block}
    (hk : legalRound k = true) (h : s.roundCommand k f = .next t) : t.errcode ≠ some .illegalCommand := by
  rcases s.roundCommand_cases k f with ⟨hout, _⟩ | ⟨j, _, e⟩
  · have := of_decide_eq_true hk
    omega
  · cases e.symm.trans h
    simp

theorem exec_ne_illegal {i : Instr} (hi : i.wellFormed = true) {s t : State} (h : exec i s = .next t) :
    t.errcode ≠ some .illegalCommand := by
  cases i <;> simp only [exec] at h
  case addroundkey k | encround k | decround k => exact roundCommand_ne_illegal hi h
  case keyld =>
    unfold execKeyld at h
    split at h <;> cases h
    · next he => exact he ▸ keyldError_ne_illegal s
    · simp
  case encblk | decblk =>
    simp only [execEncblk, execDecblk] at h
    split at h <;> cases h
    · next he => exact he ▸ blockError_ne_illegal s
    · simp
  case cbcenc =>
    unfold execCbcenc at h
    split at h <;> cases h
    · next he => exact he ▸ regionError_ne_illegal s _ _
    · simp
  case cbcdec =>
    unfold execCbcdec at h
    split at h
    · next he => cases h; exact he ▸ cbcdecError_ne_illegal s
    · split at h <;> cases h <;> simp
  case pad | unpad =>
    simp only [execPad, execUnpad] at h
    repeat' split at h
    all_goals cases h; simp
  -- what is left makes no check
  all_goals cases h; simp

/-- Settles O4: the kinds of R305 are the decoder's refusals, and no command with a legal round number ends so. -/
theorem illegalWordsRaiseIllegalCommand : Obligations.IllegalWordsRaiseIllegalCommand := by
  intro v
  have hraise (hv : IllegalWord v) (s : State) : executeWord v s = .next (onlyStatus s (some .illegalCommand)) := by
    obtain ⟨e, he⟩ := (illegalWord_iff v).mp hv
    exact executeWord_error he s
  refine ⟨illegalWord_iff v, hraise, fun s => ?_⟩
  cases hd : decode v with
  | error e =>
    have hv := (illegalWord_iff v).mpr ⟨e, hd⟩
    exact ⟨_, hraise hv s, iff_of_true rfl hv⟩
  | ok i =>
    obtain ⟨t, ht, _⟩ := exec_completed i s
    obtain ⟨_, _, _, hi⟩ := fields_of_decode hd
    have hv : ¬ IllegalWord v := by simp [illegalWord_iff, hd]
    exact ⟨t, (executeWord_ok hd s).trans ht, iff_of_false (exec_ne_illegal hi ht) hv⟩

/-! ### What the commands with no result in BUF leave unchanged (R302, R922) -/

/-- A command with no output region leaves every byte of BUF (R203, R204). -/
theorem exec_bufByte_of_noOutput {i : Instr} {s t : State} (hr : outputRegion s i = (0, 0)) (h : exec i s = .next t)
    (a : Nat) : t.bufByte a = s.bufByte a :=
  exec_bufByte_outside h (by simp [hr])

/-- Settles O41: each of these commands is one `setRes` or `setState` and the completion. -/
theorem registerCommandFrame : Obligations.RegisterCommandFrame := by
  refine fun s t => ⟨fun h => ⟨?_, exec_res, ?_⟩, fun h => ⟨?_, ?_⟩⟩
  · rcases h with h | h | h | h | h <;> cases h <;> rfl
  · rcases h with h | h | h | h | h <;> exact exec_bufByte_of_noOutput rfl h
  · rcases h with h | h | h | h | h | h <;> cases h <;> rfl
  · rcases h with h | h | h | h | h | h <;> exact exec_bufByte_of_noOutput rfl h

/-- The registers KEYLD leaves alone. -/
theorem execKeyld_frame {s t : State} (h : execKeyld s = .next t) :
    t = onlyStatus { s with key := t.key, kv := t.kv } t.errcode := by
  unfold execKeyld at h
  split at h <;> cases h <;> rfl

/-- The registers a command on STATE with a round number leaves alone, whatever the number. -/
theorem roundCommand_frame {s t : State} {k : BitVec 4} {f : Block → RoundKeys → Fin 11 → Block}
    (h : s.roundCommand k f = .next t) :
    t = onlyStatus { s with state := t.state, rk := t.rk, kv := t.kv } t.errcode := by
  rcases s.roundCommand_cases k f with ⟨_, e⟩ | ⟨j, _, e⟩
  · cases e.symm.trans h
    rfl
  · generalize f s.state s.ensureRoundKeys.rk j = B at e
    rw [State.ensureRoundKeys_eq] at e
    cases e.symm.trans h
    rfl

/-- Settles O42: the registers by the frames of KEYLD and `roundCommand`, the bytes by the empty output region. -/
theorem keyAndRoundCommandFrame : Obligations.KeyAndRoundCommandFrame := by
  refine fun s t k => ⟨fun h => ⟨execKeyld_frame h, exec_bufByte_of_noOutput rfl h⟩, fun h => ⟨?_, ?_⟩,
    fun h => ⟨?_, ?_⟩⟩
  · cases h
    rfl
  · exact exec_bufByte_of_noOutput rfl h
  · rcases h with h | h | h <;> rw [exec] at h <;> exact roundCommand_frame h
  · rcases h with h | h | h <;> exact exec_bufByte_of_noOutput rfl h

end Sys2Proof.Machine
end

section
/-! PROOFS. GF(2^8) as the field of R400 to R403, the substitution tables as its inverse and the affine map (R404 to R407),
and the byte-level commands (R420 to R423). -/

namespace Sys2Proof.Machine

/-! ### GFMul is bilinear over XOR (R401, R402) -/

theorem gfMul_xor_right (a b b' : Byte) : gfMul a (b ^^^ b') = gfMul a b ^^^ gfMul a b' := by
  simpa [gfMul] using gfMulLoop_xor_right 8 a b b' 0 0

@[simp] theorem gfMul_zero_right (a : Byte) : gfMul a 0#8 = 0#8 := by
  simpa using gfMul_xor_right a 0 0

@[simp] theorem gfMul_one_right (a : Byte) : gfMul a 1#8 = a := by
  simp [gfMul, gfMulLoop]

@[simp] theorem gfMul_one_left : ∀ b : Byte, gfMul 1#8 b = b := by decide

/-! ### Induction on bytes: every byte is a sum of 1, x, ..., x^7 -/

/-- What XOR keeps, and the multiplicand and its doubles have, the result of the loop of GFMul has. -/
theorem gfMulLoop_induction {P : Byte → Prop} (hxor : ∀ a b, P a → P b → P (a ^^^ b)) {n : Nat} {a acc : Byte}
    (hpow : ∀ k < n, P (gfDouble^[k] a)) (hacc : P acc) (b : Byte) : P (gfMulLoop n a b acc) := by
  induction n generalizing a acc b with
  | zero => exact hacc
  | succ n ih =>
    refine ih (fun k hk => hpow (k + 1) (by omega)) ?_ _
    split
    · exact hxor _ _ hacc (hpow 0 (by omega))
    · exact hacc

/-- A property that XOR keeps holds for every byte once it holds for the eight powers of x: a byte is 1 times itself, and
GFMul adds up doubles of 1. -/
theorem byte_induction_powers {P : Byte → Prop} (hxor : ∀ a b, P a → P b → P (a ^^^ b))
    (hpow : ∀ k < 8, P (gfDouble^[k] 1#8)) (a : Byte) : P a := by
  have hzero : P 0#8 := by simpa using hxor _ _ (hpow 0 (by omega)) (hpow 0 (by omega))
  have hmul : P (gfMul 1#8 a) := gfMulLoop_induction hxor hpow hzero a
  rwa [gfMul_one_left] at hmul

/-- A property that XOR and GFDouble keep holds for every byte once it holds for 1. -/
theorem byte_induction {P : Byte → Prop} (hone : P 1#8) (hdouble : ∀ a, P a → P (gfDouble a))
    (hxor : ∀ a b, P a → P b → P (a ^^^ b)) (a : Byte) : P a :=
  byte_induction_powers hxor (fun k _ => Function.Iterate.rec P hone hdouble k) a

/-! ### The ring laws of GFMul (R402, R403) -/

theorem gfMul_double_right (a b : Byte) : gfMul a (gfDouble b) = gfDouble (gfMul a b) := by
  induction a using byte_induction with
  | hone => simp
  | hdouble a ih => rw [gfMul_double_left, gfMul_double_left, ih]
  | hxor a a' ih ih' => rw [gfMul_xor_left, gfMul_xor_left, ih, ih', gfDouble_xor]

theorem gfMul_comm (a b : Byte) : gfMul a b = gfMul b a := by
  induction a using byte_induction with
  | hone => simp
  | hdouble a ih => rw [gfMul_double_left, gfMul_double_right, ih]
  | hxor a a' ih ih' => rw [gfMul_xor_left, gfMul_xor_right, ih, ih']

theorem gfMul_assoc (a b c : Byte) : gfMul (gfMul a b) c = gfMul a (gfMul b c) := by
  induction a using byte_induction with
  | hone => simp
  | hdouble a ih => simp only [gfMul_double_left, ih]
  | hxor a a' ih ih' => simp only [gfMul_xor_left, ih, ih']

/-- GFDouble is the product with x. -/
theorem gfMul_two_right (a : Byte) : gfMul a 2#8 = gfDouble a := by
  have htwo : 2#8 = gfDouble 1#8 := by decide
  rw [htwo, gfMul_double_right, gfMul_one_right]

/-- Settles O46: commutativity by induction on the multiplicand, the other two laws from the loop. -/
theorem gfMulLaws : Obligations.GfMulLaws :=
  fun a b => ⟨gfMul_comm a b, gfMul_one_right a, gfMul_zero_right a⟩

/-! ### The product of polynomials and its remainder (R403) -/

/-- A fold whose step is additive over XOR is additive over XOR. -/
theorem foldl_xor {ι : Type} {f g h : Nat → ι → Nat} (hstep : ∀ p q i, f (p ^^^ q) i = g p i ^^^ h q i) (l : List ι)
    (p q : Nat) : l.foldl f (p ^^^ q) = l.foldl g p ^^^ l.foldl h q := by
  induction l generalizing p q with
  | nil => rfl
  | cons i l ih => simp only [List.foldl_cons, hstep, ih]

theorem polyRemainder_xor (p q : Nat) : polyRemainder (p ^^^ q) = polyRemainder p ^^^ polyRemainder q := by
  refine foldl_xor (fun p q i => ?_) _ p q
  rw [Nat.testBit_xor]
  cases p.testBit i <;> cases q.testBit i <;> simp [Nat.xor_assoc, Nat.xor_comm, Nat.xor_left_comm]

theorem polyProduct_xor_left (a a' b : Byte) : polyProduct (a ^^^ a') b = polyProduct a b ^^^ polyProduct a' b := by
  refine foldl_xor (fun p q i => ?_) _ 0 0
  rw [BitVec.toNat_xor, Nat.shiftLeft_xor_distrib]
  split
  · ac_rfl
  · rfl

theorem polyProduct_xor_right (a b b' : Byte) : polyProduct a (b ^^^ b') = polyProduct a b ^^^ polyProduct a b' := by
  refine foldl_xor (fun p q i => ?_) _ 0 0
  rw [BitVec.getLsbD_xor]
  cases b.getLsbD i <;> cases b'.getLsbD i <;> simp [Nat.xor_assoc, Nat.xor_comm, Nat.xor_left_comm]

/-- On powers of x the loop of GFMul and the reduction by 0x11B give the same 64 values. -/
theorem toNat_gfMul_powers : ∀ i < 8, ∀ j < 8,
    (gfMul (gfDouble^[i] 1#8) (gfDouble^[j] 1#8)).toNat =
      polyRemainder (polyProduct (gfDouble^[i] 1#8) (gfDouble^[j] 1#8)) := by decide

/-- Both sides are bilinear, so they agree once they agree on powers of x. -/
theorem toNat_gfMul (a b : Byte) : (gfMul a b).toNat = polyRemainder (polyProduct a b) := by
  induction a using byte_induction_powers with
  | hxor a a' ih ih' => rw [gfMul_xor_left, polyProduct_xor_left, polyRemainder_xor, BitVec.toNat_xor, ih, ih']
  | hpow i hi =>
    induction b using byte_induction_powers with
    | hxor b b' ih ih' => rw [gfMul_xor_right, polyProduct_xor_right, polyRemainder_xor, BitVec.toNat_xor, ih, ih']
    | hpow j hj => exact toNat_gfMul_powers i hi j hj

theorem polyProduct_two (a : Byte) : polyProduct a 2#8 = 2 * a.toNat := by
  simp [polyProduct, List.range_succ, Nat.shiftLeft_eq, Nat.mul_comm]

theorem toNat_gfDouble (a : Byte) : (gfDouble a).toNat = polyRemainder (2 * a.toNat) := by
  rw [← gfMul_two_right, toNat_gfMul, polyProduct_two]

/-! ### The field inverse, read off SBOX (R403, R406) -/

/-- The affine map of R406 undone. -/
def affineInverse (y : Byte) : Byte := y.rotateLeft 1 ^^^ y.rotateLeft 3 ^^^ y.rotateLeft 6 ^^^ 0x05

theorem affineMap_affineInverse : ∀ y : Byte, affineMap (affineInverse y) = y := by decide

/-- The field inverse of a nonzero byte, since SBOX is the affine map of it (R406). -/
def fieldInverse (x : Byte) : Byte := affineInverse (sbox x)

theorem gfMul_fieldInverse : ∀ x : Byte, x ≠ 0 → gfMul x (fieldInverse x) = 1 := by decide

/-- A byte has at most one inverse: `c = (a b) c = b (a c) = b`. -/
theorem eq_of_gfMul_eq_one {a b c : Byte} (hb : gfMul a b = 1) (hc : gfMul a c = 1) : c = b := by
  calc c = gfMul (gfMul a b) c := by rw [hb]; exact (gfMul_one_left c).symm
    _ = gfMul b (gfMul a c) := by rw [gfMul_comm a b, gfMul_assoc]
    _ = b := by rw [hc]; exact gfMul_one_right b

theorem ne_zero_of_gfMul_eq_one {a b : Byte} (h : gfMul a b = 1) : a ≠ 0 := by
  rintro rfl
  exact absurd ((gfMul_zero_left b).symm.trans h) (by decide)

/-- Settles O47: the product by bilinearity, the ring laws by induction on bytes, the inverse read off SBOX. -/
theorem gfMulIsTheFieldProduct : Obligations.GfMulIsTheFieldProduct :=
  ⟨toNat_gfMul, fun a => ⟨toNat_gfDouble a, gfMul_two_right a⟩, gfMul_xor_right, gfMul_assoc,
    fun a ha => ⟨fieldInverse a, gfMul_fieldInverse a ha, fun _ => eq_of_gfMul_eq_one (gfMul_fieldInverse a ha)⟩⟩

/-! ### The tables (R404 to R407) -/

@[simp] theorem invSbox_sbox : ∀ x : Byte, invSbox (sbox x) = x := by decide

/-- On a finite type an inverse on one side is an inverse on the other. -/
@[simp] theorem sbox_invSbox (x : Byte) : sbox (invSbox x) = x :=
  Function.LeftInverse.rightInverse_of_card_le (f := invSbox) (g := sbox) invSbox_sbox le_rfl x

theorem sbox_ne_self : ∀ x : Byte, sbox x ≠ x := by decide

theorem sbox_eq_affineMap_of_inverse {x y : Byte} (h : gfMul x y = 1) : sbox x = affineMap y := by
  have hy : y = fieldInverse x := eq_of_gfMul_eq_one (gfMul_fieldInverse x (ne_zero_of_gfMul_eq_one h)) h
  rw [hy, fieldInverse, affineMap_affineInverse]

/-- Settles O48: the inverse is the one read off SBOX, which the affine map takes back to the entry. -/
theorem tablesAreTheConstruction : Obligations.TablesAreTheConstruction :=
  ⟨by decide, fun _ _ => sbox_eq_affineMap_of_inverse, fun x => ⟨invSbox_sbox x, sbox_invSbox x, sbox_ne_self x⟩⟩

/-! ### The byte-level commands (R420 to R423) -/

/-- A command with no round number has one word, and every other word of its OPC is illegal (R303 to R305). -/
theorem plainWord {i : Instr} (h : ¬ RoundOpcode (opcodeOf i).toNat) : PlainWord (opcodeOf i).toNat i := by
  have hround := roundOf_of_plain h
  have hopc := (opcodeOf i).isLt
  have hword : (BitVec.ofNat 32 (opcodeOf i).toNat).toNat = (opcodeOf i).toNat := Nat.mod_eq_of_lt (hopc.trans (by decide))
  constructor
  · refine decode_of_fields ?rsv ?rnd ?opc (by rw [wellFormed_eq_legalRound, hround]; rfl)
    case rsv => rw [rsvField_eq_zero, hword, Nat.div_eq_of_lt (hopc.trans (by decide))]
    case rnd => rw [hround, rndField_eq_zero, hword, Nat.div_eq_of_lt hopc]
    case opc => rw [BitVec.toNat_eq, toNat_opcField, hword, Nat.mod_eq_of_lt hopc]
  · intro v s hv hne
    obtain ⟨_, hraise, _⟩ := illegalWordsRaiseIllegalCommand v
    refine hraise ?_ s
    by_cases hrsv : v.toNat / 4096 = 0
    · have hrnd : v.toNat / 256 % 16 ≠ 0 := by clear h hraise; omega
      exact .inr (.inr (.inr ⟨hv ▸ h, hrnd⟩))
    · exact .inl hrsv

/-- Settles O26: the words by the decoder, the results by the command's one `setRes`, the laws by the field's. -/
theorem byteCommands : Obligations.ByteCommands := by
  refine ⟨plainWord (i := .gfmul) (by decide), plainWord (i := .gfdbl) (by decide), plainWord (i := .sbox) (by decide),
    plainWord (i := .invsbox) (by decide), fun s => ⟨rfl, rfl, rfl, rfl⟩,
    fun a b => ⟨gfMul_zero_right a, gfMul_zero_left a, gfMul_one_right a, gfMul_comm a b⟩, ?_⟩
  -- the thirteen values of the rules' examples, then the two laws of the tables
  iterate 13 refine ⟨by decide, ?_⟩
  exact fun x => ⟨sbox_ne_self x, invSbox_sbox x⟩

end Sys2Proof.Machine
end

section
/-! PROOFS. The laws of the transformations of a block (R459, R460), and the rounds and the cipher with their inverses
(R463, R553). -/

namespace Sys2Proof.Machine

/-! ### The cells of a transformed block (R453 to R458) -/

@[simp] theorem cell_column_mod (B : Block) (r c : Nat) : cell B r (c % 4) = cell B r c :=
  cell_congr B rfl (by omega)

@[simp] theorem cell_subBytes (B : Block) (r c : Nat) : cell (subBytes B) r c = sbox (cell B r c) :=
  cell_mapBytes _ _ _ _

@[simp] theorem cell_invSubBytes (B : Block) (r c : Nat) : cell (invSubBytes B) r c = invSbox (cell B r c) :=
  cell_mapBytes _ _ _ _

@[simp] theorem cell_shiftRows (B : Block) (r c : Nat) : cell (shiftRows B) r c = cell B r (c + r) := by
  rw [shiftRows, cell_blockOfCells]
  exact cell_congr B (by omega) (by omega)

/-- Right by r is left by 3r, rows being of length 4. -/
@[simp] theorem cell_invShiftRows (B : Block) (r c : Nat) : cell (invShiftRows B) r c = cell B r (c + 3 * r) := by
  rw [invShiftRows, cell_blockOfCells]
  exact cell_congr B (by omega) (by omega)

/-- A cell of the product of the matrix with the columns: its row of the matrix times its column (R457, R458). -/
theorem cell_mixWith (m : Vector Byte 4) (B : Block) {r : Nat} (hr : r < 4) (c : Nat) :
    cell (mixWith m B) r c =
      gfMul (matrixEntry m r 0) (cell B 0 c) ^^^ gfMul (matrixEntry m r 1) (cell B 1 c) ^^^
        gfMul (matrixEntry m r 2) (cell B 2 c) ^^^ gfMul (matrixEntry m r 3) (cell B 3 c) := by
  simp [mixWith, Nat.mod_eq_of_lt hr]

/-! ### The substitutions and the row shifts (R460) -/

@[simp] theorem invSubBytes_subBytes (B : Block) : invSubBytes (subBytes B) = B :=
  block_ext_cells fun r c _ _ => by simp

@[simp] theorem subBytes_invSubBytes (B : Block) : subBytes (invSubBytes B) = B :=
  block_ext_cells fun r c _ _ => by simp

@[simp] theorem invShiftRows_shiftRows (B : Block) : invShiftRows (shiftRows B) = B :=
  block_ext_cells fun r c _ _ => by
    rw [cell_invShiftRows, cell_shiftRows]
    exact cell_congr B rfl (by omega)

@[simp] theorem shiftRows_invShiftRows (B : Block) : shiftRows (invShiftRows B) = B :=
  block_ext_cells fun r c _ _ => by
    rw [cell_shiftRows, cell_invShiftRows]
    exact cell_congr B rfl (by omega)

theorem shiftRows_four_times (B : Block) : shiftRows (shiftRows (shiftRows (shiftRows B))) = B :=
  block_ext_cells fun r c _ _ => by
    simp only [cell_shiftRows]
    exact cell_congr B rfl (by omega)

/-- Permuting the bytes commutes with replacing each by its image. -/
theorem shiftRows_mapBytes (f : Byte → Byte) (B : Block) : shiftRows (mapBytes f B) = mapBytes f (shiftRows B) :=
  block_ext_cells fun r c _ _ => by simp

theorem invShiftRows_mapBytes (f : Byte → Byte) (B : Block) :
    invShiftRows (mapBytes f B) = mapBytes f (invShiftRows B) :=
  block_ext_cells fun r c _ _ => by simp

/-! ### The products with a matrix (R457, R458, R460) -/

theorem mixWith_xorBlock (m : Vector Byte 4) (B D : Block) :
    mixWith m (xorBlock B D) = xorBlock (mixWith m B) (mixWith m D) :=
  block_ext_cells fun r c hr _ => by
    simp only [cell_xorBlock, cell_mixWith m _ hr, gfMul_xor_right]
    ac_rfl

/-- The matrix of m times the matrix of n is the identity matrix. -/
abbrev MatricesInverse (m n : Vector Byte 4) : Prop :=
  ∀ r < 4, ∀ j < 4,
    gfMul (matrixEntry m r 0) (matrixEntry n 0 j) ^^^ gfMul (matrixEntry m r 1) (matrixEntry n 1 j) ^^^
      gfMul (matrixEntry m r 2) (matrixEntry n 2 j) ^^^ gfMul (matrixEntry m r 3) (matrixEntry n 3 j) =
    if r = j then 1 else 0

/-- The matrices act on a column one after the other as their product does, by the distributive and associative laws. -/
theorem mixWith_mixWith_of_inverse {m n : Vector Byte 4} (h : MatricesInverse m n) (B : Block) :
    mixWith m (mixWith n B) = B := by
  refine block_ext_cells fun r c hr _ => ?_
  have hcell : cell (mixWith m (mixWith n B)) r c =
      gfMul (if r = 0 then 1 else 0) (cell B 0 c) ^^^ gfMul (if r = 1 then 1 else 0) (cell B 1 c) ^^^
        gfMul (if r = 2 then 1 else 0) (cell B 2 c) ^^^ gfMul (if r = 3 then 1 else 0) (cell B 3 c) := by
    rw [← h r hr 0 (by omega), ← h r hr 1 (by omega), ← h r hr 2 (by omega), ← h r hr 3 (by omega)]
    simp (disch := omega) only [cell_mixWith, gfMul_xor_right, gfMul_xor_left, gfMul_assoc]
    ac_rfl
  rw [hcell]
  interval_cases r <;> simp

theorem invMixMatrix_inverse : MatricesInverse invMixCoefficients mixCoefficients := by decide

theorem mixMatrix_inverse : MatricesInverse mixCoefficients invMixCoefficients := by decide

@[simp] theorem invMixColumns_mixColumns (B : Block) : invMixColumns (mixColumns B) = B :=
  mixWith_mixWith_of_inverse invMixMatrix_inverse B

@[simp] theorem mixColumns_invMixColumns (B : Block) : mixColumns (invMixColumns B) = B :=
  mixWith_mixWith_of_inverse mixMatrix_inverse B

/-- The coefficients of MixColumns add up to 1. -/
theorem mixMatrix_rowSum : ∀ r < 4,
    matrixEntry mixCoefficients r 0 ^^^ matrixEntry mixCoefficients r 1 ^^^ matrixEntry mixCoefficients r 2 ^^^
      matrixEntry mixCoefficients r 3 = 1#8 := by decide

theorem mixColumns_of_equal_columns {B : Block} (h : ∀ r c, cell B r c = cell B 0 c) : mixColumns B = B := by
  refine block_ext_cells fun r c hr _ => ?_
  rw [mixColumns, cell_mixWith _ _ hr, h 1, h 2, h 3, h r, ← gfMul_xor_left, ← gfMul_xor_left, ← gfMul_xor_left,
    mixMatrix_rowSum r hr, gfMul_one_left]

@[simp] theorem addRoundKey_addRoundKey (B K : Block) : addRoundKey (addRoundKey B K) K = B :=
  xorBlock_self_right B K

/-- Settles O49: each law cell by cell; MixColumns by the product of the two matrices and by its row sums. -/
theorem transformationLaws : Obligations.TransformationLaws := fun B D =>
  ⟨⟨invSubBytes_subBytes B, subBytes_invSubBytes B, invShiftRows_shiftRows B, shiftRows_invShiftRows B,
      invMixColumns_mixColumns B, mixColumns_invMixColumns B⟩,
    ⟨shiftRows_mapBytes _ B, shiftRows_mapBytes _ B, invShiftRows_mapBytes _ B, invShiftRows_mapBytes _ B⟩,
    ⟨mixWith_xorBlock _ B D, mixWith_xorBlock _ B D⟩,
    fun c _ => ⟨cell_shiftRows B 0 c, cell_invShiftRows B 0 c⟩,
    shiftRows_four_times B, mixColumns_of_equal_columns, addRoundKey_addRoundKey B D⟩

/-! ### The rounds and the cipher (R461 to R463, R550 to R553) -/

@[simp] theorem decRound_encRound (B : Block) (rk : RoundKeys) (k : Fin 11) : decRound (encRound B rk k) rk k = B := by
  unfold encRound decRound
  split
  · simp
  · split <;> simp

@[simp] theorem encRound_decRound (B : Block) (rk : RoundKeys) (k : Fin 11) : encRound (decRound B rk k) rk k = B := by
  unfold encRound decRound
  split
  · simp
  · split <;> simp

/-- A fold is undone by the fold of the inverse steps in the opposite order. -/
theorem foldl_reverse_foldl {α ι : Type} {f g : α → ι → α} (h : ∀ a i, g (f a i) i = a) (l : List ι) (a : α) :
    l.reverse.foldl g (l.foldl f a) = a := by
  induction l generalizing a with
  | nil => rfl
  | cons i l ih => simp only [List.reverse_cons, List.foldl_append, List.foldl_cons, List.foldl_nil, ih, h]

theorem invCipher_cipher (B : Block) (rk : RoundKeys) : invCipher (cipher B rk) rk = B :=
  foldl_reverse_foldl (fun B k => decRound_encRound B rk k) roundNumbers B

theorem cipher_invCipher (B : Block) (rk : RoundKeys) : cipher (invCipher B rk) rk = B :=
  foldl_reverse_foldl (fun B k => encRound_decRound B rk k) roundNumbers.reverse B

/-- Settles O50: the rounds by the inverse pairs of the transformations, the cipher by undoing the last round first. -/
theorem cipherIsInverted : Obligations.CipherIsInverted :=
  ⟨fun B rk k => ⟨decRound_encRound B rk k, encRound_decRound B rk k⟩,
    fun B rk => ⟨invCipher_cipher B rk, cipher_invCipher B rk⟩⟩

end Sys2Proof.Machine
end

section
/-! PROOFS. The commands on STATE (R470 to R478), and the cipher made of the round commands (R480). -/

namespace Sys2Proof.Machine

/-! ### The commands with no round number (R470 to R475) -/

@[simp] theorem getElem_subBytes (B : Block) (k : Nat) (h : k < 16) : (subBytes B)[k] = sbox B[k] :=
  getElem_mapBytes sbox B k h

@[simp] theorem getElem_invSubBytes (B : Block) (k : Nat) (h : k < 16) : (invSubBytes B)[k] = invSbox B[k] :=
  getElem_mapBytes invSbox B k h

/-- Settles O27: the results by the two tables, the inverse and the missing fixed points by their laws. -/
theorem subBytesCommands : Obligations.SubBytesCommands :=
  ⟨plainWord (i := .subbytes) (by decide), plainWord (i := .invsubbytes) (by decide),
    fun s => ⟨subBytes s.state, rfl, fun k => by simp [sbox_ne_self], _, rfl, invSubBytes_subBytes s.state⟩,
    fun s => ⟨invSubBytes s.state, rfl, fun k => by simp⟩,
    by decide +kernel, by decide +kernel, by decide +kernel, by decide +kernel⟩

/-- The byte list of R455. -/
theorem shiftRows_eq (B : Block) : shiftRows B =
    #v[B[0], B[5], B[10], B[15], B[4], B[9], B[14], B[3], B[8], B[13], B[2], B[7], B[12], B[1], B[6], B[11]] := by
  refine Vector.ext fun k hk => ?_
  rw [shiftRows, getElem_blockOfCells]
  interval_cases k <;> rfl

/-- The byte list of R456. -/
theorem invShiftRows_eq (B : Block) : invShiftRows B =
    #v[B[0], B[13], B[10], B[7], B[4], B[1], B[14], B[11], B[8], B[5], B[2], B[15], B[12], B[9], B[6], B[3]] := by
  refine Vector.ext fun k hk => ?_
  rw [invShiftRows, getElem_blockOfCells]
  interval_cases k <;> rfl

theorem shiftRows_of_equal_rows {B : Block} (h : ∀ r c, cell B r c = cell B r 0) : shiftRows B = B :=
  block_ext_cells fun r c _ _ => by rw [cell_shiftRows, h, h r c]

/-- Settles O28: the two byte lists; the laws cell by cell. -/
theorem shiftRowsCommands : Obligations.ShiftRowsCommands := by
  refine ⟨plainWord (i := .shiftrows) (by decide), plainWord (i := .invshiftrows) (by decide), fun s => ?_, fun s => ?_,
    fun B r c _ _ => ⟨?_, ?_⟩,
    fun B => ⟨invShiftRows_shiftRows B, shiftRows_four_times B, shiftRows_of_equal_rows⟩,
    by decide +kernel, by decide +kernel⟩
  · rw [← shiftRows_eq]; rfl
  · rw [← invShiftRows_eq]; rfl
  · rw [cell_shiftRows, cell_column_mod]
  · rw [cell_column_mod, cell_invShiftRows]
    exact cell_congr B rfl (by omega)

/-- Byte r of column j of the product of the matrix with the columns (R457, R458). -/
theorem getElem_mixWith (m : Vector Byte 4) (B : Block) {r j : Nat} (hr : r < 4) (hj : j < 4) :
    (mixWith m B)[4 * j + r] =
      gfMul (matrixEntry m r 0) B[4 * j] ^^^ gfMul (matrixEntry m r 1) B[4 * j + 1] ^^^
        gfMul (matrixEntry m r 2) B[4 * j + 2] ^^^ gfMul (matrixEntry m r 3) B[4 * j + 3] := by
  rw [← cell_eq_getElem _ hr hj, cell_mixWith m B hr, cell_eq_getElem B (r := 0) (by omega) hj,
    cell_eq_getElem B (r := 1) (by omega) hj, cell_eq_getElem B (r := 2) (by omega) hj,
    cell_eq_getElem B (r := 3) (by omega) hj]
  rfl

/-- The four bytes of a column, each row of the matrix the coefficient list rotated right once more (R457, R458). -/
theorem column_mixWith (m : Vector Byte 4) (B : Block) {j : Nat} (hj : j < 4) :
    (mixWith m B)[4 * j] =
      gfMul m[0] B[4 * j] ^^^ gfMul m[1] B[4 * j + 1] ^^^ gfMul m[2] B[4 * j + 2] ^^^ gfMul m[3] B[4 * j + 3] ∧
    (mixWith m B)[4 * j + 1] =
      gfMul m[3] B[4 * j] ^^^ gfMul m[0] B[4 * j + 1] ^^^ gfMul m[1] B[4 * j + 2] ^^^ gfMul m[2] B[4 * j + 3] ∧
    (mixWith m B)[4 * j + 2] =
      gfMul m[2] B[4 * j] ^^^ gfMul m[3] B[4 * j + 1] ^^^ gfMul m[0] B[4 * j + 2] ^^^ gfMul m[1] B[4 * j + 3] ∧
    (mixWith m B)[4 * j + 3] =
      gfMul m[1] B[4 * j] ^^^ gfMul m[2] B[4 * j + 1] ^^^ gfMul m[3] B[4 * j + 2] ^^^ gfMul m[0] B[4 * j + 3] :=
  ⟨getElem_mixWith m B (r := 0) (by omega) hj, getElem_mixWith m B (r := 1) (by omega) hj,
    getElem_mixWith m B (r := 2) (by omega) hj, getElem_mixWith m B (r := 3) (by omega) hj⟩

/-- Settles O29: the columns for the two coefficient lists, a product with 1 being the byte itself. -/
theorem mixColumnsCommands : Obligations.MixColumnsCommands :=
  ⟨plainWord (i := .mixcolumns) (by decide), plainWord (i := .invmixcolumns) (by decide),
    fun s => ⟨mixColumns s.state, rfl, fun j hj => by
      simpa [mixColumns, mixCoefficients] using column_mixWith mixCoefficients s.state hj⟩,
    fun s => ⟨invMixColumns s.state, rfl, fun j hj => column_mixWith invMixCoefficients s.state hj⟩,
    by decide +kernel, by decide +kernel⟩

/-! ### The commands with a round number (R476 to R478) -/

/-- A command with a round number has a word for each legal one, and every other word of its OPC is illegal (R303 to
R305). -/
theorem roundWord {opc : Byte} {i : BitVec 4 → Instr} (h : RoundOpcode opc.toNat) (hopc : ∀ k, opcodeOf (i k) = opc)
    (hrnd : ∀ k, roundOf (i k) = k) : RoundWord opc.toNat i := by
  have hlt := opc.isLt
  constructor
  · intro k hk
    have hword : (BitVec.ofNat 32 (256 * k + opc.toNat)).toNat = 256 * k + opc.toNat := Nat.mod_eq_of_lt (by omega)
    have hround : (BitVec.ofNat 4 k).toNat = k := Nat.mod_eq_of_lt (by omega)
    refine decode_of_fields ?rsv ?rnd ?opc ?legal
    case rsv => rw [rsvField_eq_zero, hword]; omega
    case rnd => rw [hrnd, BitVec.toNat_eq, toNat_rndField, hword, hround]; omega
    case opc => rw [hopc, BitVec.toNat_eq, toNat_opcField, hword]; omega
    case legal => rw [wellFormed_eq_legalRound, hrnd]; simpa [legalRound, hround] using hk
  · intro v s hv hbad
    obtain ⟨_, hraise, _⟩ := illegalWordsRaiseIllegalCommand v
    refine hraise ?_ s
    rcases hbad with hround | hrsv
    · exact .inr (.inr (.inl ⟨hv ▸ h, hround⟩))
    · exact .inl hrsv

/-- EncRound with its cases as R477 lists them: 0, 1 to 9, 10. -/
theorem encRound_by_number (B : Block) (rk : RoundKeys) (k : Fin 11) : encRound B rk k =
    if k.val = 0 then addRoundKey B rk[k]
    else if k.val ≤ 9 then addRoundKey (mixColumns (shiftRows (subBytes B))) rk[k]
    else addRoundKey (shiftRows (subBytes B)) rk[k] := by
  obtain h | h | ⟨h0, h10⟩ : k.val = 0 ∨ k.val = 10 ∨ k.val ≠ 0 ∧ k.val ≠ 10 := by omega
  · simp [encRound, h]
  · simp [encRound, h]
  · have h9 : k.val ≤ 9 := by omega
    simp [encRound, h0, h10, h9]

/-- DecRound with its cases as R478 lists them: 10, 9 to 1, 0. -/
theorem decRound_by_number (B : Block) (rk : RoundKeys) (k : Fin 11) : decRound B rk k =
    if k.val = 10 then invSubBytes (invShiftRows (addRoundKey B rk[k]))
    else if 1 ≤ k.val then invSubBytes (invShiftRows (invMixColumns (addRoundKey B rk[k])))
    else addRoundKey B rk[k] := by
  obtain h | h | ⟨h0, h10⟩ : k.val = 0 ∨ k.val = 10 ∨ k.val ≠ 0 ∧ k.val ≠ 10 := by omega
  · simp [decRound, h]
  · simp [decRound, h]
  · have h1 : 1 ≤ k.val := by omega
    simp [decRound, h0, h10, h1]

/-- What a completed command with a round number leaves: B in STATE and the expansion of KEY in RK (R476 to R478). -/
def afterRound (s : State) (B : Block) : State :=
  onlyStatus { s with state := B, rk := keyExpansion s.key, kv := true } none

theorem afterRound_keysCurrent (s : State) (B : Block) : (afterRound s B).KeysCurrent := fun _ => rfl

@[simp] theorem afterRound_key (s : State) (B : Block) : (afterRound s B).key = s.key := rfl

@[simp] theorem afterRound_state (s : State) (B : Block) : (afterRound s B).state = B := rfl

theorem roundIndex_ofNat (k : Fin 11) : roundIndex (BitVec.ofNat 4 k.val) = some k := by
  revert k; decide

theorem roundCommand_eq {s : State} (hs : s.KeysCurrent) (k : Fin 11) (f : Block → RoundKeys → Fin 11 → Block) :
    s.roundCommand (BitVec.ofNat 4 k.val) f = .next (afterRound s (f s.state (keyExpansion s.key) k)) := by
  unfold State.roundCommand
  rw [roundIndex_ofNat]
  dsimp only
  generalize hB : f s.state s.ensureRoundKeys.rk k = B
  rw [State.ensureRoundKeys_rk s hs] at hB
  rw [hB, State.ensureRoundKeys_eq s, State.ensureRoundKeys_rk s hs]
  rfl

theorem exec_addroundkey {s : State} (hs : s.KeysCurrent) (k : Fin 11) :
    exec (.addroundkey (BitVec.ofNat 4 k.val)) s =
      .next (afterRound s (addRoundKey s.state (keyExpansion s.key)[k])) := by
  rw [exec, execAddroundkey, roundCommand_eq hs]

theorem exec_encround {s : State} (hs : s.KeysCurrent) (k : Fin 11) :
    exec (.encround (BitVec.ofNat 4 k.val)) s = .next (afterRound s (encRound s.state (keyExpansion s.key) k)) := by
  rw [exec, execEncround, roundCommand_eq hs]

theorem exec_decround {s : State} (hs : s.KeysCurrent) (k : Fin 11) :
    exec (.decround (BitVec.ofNat 4 k.val)) s = .next (afterRound s (decRound s.state (keyExpansion s.key) k)) := by
  rw [exec, execDecround, roundCommand_eq hs]

/-- Settles O30: both runs of the command use the same round key, which cancels. -/
theorem addRoundKeyCommand : Obligations.AddRoundKeyCommand := by
  refine ⟨roundWord (opc := 0x16) (by decide) (fun _ => rfl) (fun _ => rfl),
    fun s k hs => ⟨_, exec_addroundkey hs k, fun b => getElem_xorBlock _ _ b b.isLt⟩,
    fun s k hs => ⟨_, _, exec_addroundkey hs k, exec_addroundkey (afterRound_keysCurrent s _) k, ?_⟩,
    by decide +kernel⟩
  simp only [afterRound_state, afterRound_key, addRoundKey_addRoundKey]

/-- Settles O31: the compositions are those of `encRound` and `decRound`, which are inverse. -/
theorem roundCommands : Obligations.RoundCommands := by
  refine ⟨roundWord (opc := 0x18) (by decide) (fun _ => rfl) (fun _ => rfl),
    roundWord (opc := 0x19) (by decide) (fun _ => rfl) (fun _ => rfl),
    fun s k hs => ⟨?_, ?_⟩,
    fun s k hs => ⟨_, _, exec_encround hs k, exec_decround (afterRound_keysCurrent s _) k, ?_⟩,
    by decide +kernel, by decide +kernel⟩
  · rw [exec_encround hs, encRound_by_number]; rfl
  · rw [exec_decround hs, decRound_by_number]; rfl
  · simp only [afterRound_state, afterRound_key, decRound_encRound]

/-- Commands with round numbers, one after the other, fold their rounds over STATE. -/
theorem execAll_rounds {i : BitVec 4 → Instr} {f : Block → RoundKeys → Fin 11 → Block}
    (hi : ∀ k s, exec (i k) s = s.roundCommand k f) (ks : List (Fin 11)) {s : State} (hs : s.KeysCurrent) :
    ∃ t, execAll (ks.map fun k => i (BitVec.ofNat 4 k.val)) s = .next t ∧
      t.state = ks.foldl (fun B k => f B (keyExpansion s.key) k) s.state := by
  induction ks generalizing s with
  | nil => exact ⟨s, rfl, rfl⟩
  | cons k ks ih =>
    obtain ⟨t, ht, hstate⟩ := ih (afterRound_keysCurrent s (f s.state (keyExpansion s.key) k))
    refine ⟨t, ?_, hstate⟩
    rw [List.map_cons, execAll, hi, roundCommand_eq hs]
    exact ht

/-- Settles O57: the cipher and its inverse are folds of the rounds over the round numbers. -/
theorem roundCommandsMakeTheCipher : Obligations.RoundCommandsMakeTheCipher := fun _ hs =>
  ⟨execAll_rounds (i := .encround) (fun _ _ => rfl) roundNumbers hs,
    execAll_rounds (i := .decround) (fun _ _ => rfl) roundNumbers.reverse hs⟩

end Sys2Proof.Machine
end

section
/-! PROOFS. The key schedule (R500) and the key commands (R520, R521). -/

namespace Sys2Proof.Machine

/-! ### The window of the loop of R500 moves on by one word a turn -/

@[simp] theorem keyStep_w0 (i : Nat) (g : KeyWindow) : (keyStep i g).w0 = g.w1 := by unfold keyStep; split <;> rfl

@[simp] theorem keyStep_w1 (i : Nat) (g : KeyWindow) : (keyStep i g).w1 = g.w2 := by unfold keyStep; split <;> rfl

@[simp] theorem keyStep_w2 (i : Nat) (g : KeyWindow) : (keyStep i g).w2 = g.w3 := by unfold keyStep; split <;> rfl

theorem keyStep_w3 (i : Nat) (g : KeyWindow) : (keyStep i g).w3 =
    xorWord (if i % 4 = 0 then addConstant (subWord (rotWord g.w3)) g.rc else g.w3) g.w0 := by
  unfold keyStep; split <;> rfl

theorem keyStep_rc (i : Nat) (g : KeyWindow) : (keyStep i g).rc = if i % 4 = 0 then gfDouble g.rc else g.rc := by
  unfold keyStep; split <;> rfl

theorem keyWindow_w1 (K : Block) (n : Nat) : (keyWindow K n).w1 = keyWord K (n + 1) :=
  (keyStep_w0 (n + 4) _).symm

theorem keyWindow_w2 (K : Block) (n : Nat) : (keyWindow K n).w2 = keyWord K (n + 2) := by
  rw [← keyWindow_w1, keyWindow, keyStep_w1]

theorem keyWindow_w3 (K : Block) (n : Nat) : (keyWindow K n).w3 = keyWord K (n + 3) := by
  rw [← keyWindow_w2, keyWindow, keyStep_w2]

/-- The running constant is doubled in the turns whose word index is a multiple of 4, the first of them turn 0. -/
theorem keyWindow_rc (K : Block) (n : Nat) : (keyWindow K n).rc = gfDouble^[(n + 3) / 4] 0x01 := by
  induction n with
  | zero => rfl
  | succ n ih =>
    rw [keyWindow, keyStep_rc, ih]
    split
    · have hturn : (n + 1 + 3) / 4 = (n + 3) / 4 + 1 := by omega
      rw [hturn, Function.iterate_succ_apply']
    · have hturn : (n + 1 + 3) / 4 = (n + 3) / 4 := by omega
      rw [hturn]

/-! ### The words and the round keys (R500, R501, R503) -/

theorem keyWord_of_lt (K : Block) {j : Nat} (hj : j < 4) : keyWord K j = wordOfKey K j := by
  match j, hj with
  | 0, _ => rfl
  | 1, _ => exact (keyWindow_w1 K 0).symm
  | 2, _ => exact (keyWindow_w2 K 0).symm
  | 3, _ => exact (keyWindow_w3 K 0).symm

/-- The recurrence of R500: word n+4 from the words n+3 and n. -/
theorem keyWord_add_four (K : Block) (n : Nat) : keyWord K (n + 4) =
    xorWord (if n % 4 = 0 then addConstant (subWord (rotWord (keyWord K (n + 3)))) (gfDouble^[n / 4] 0x01)
      else keyWord K (n + 3)) (keyWord K n) := by
  rw [← keyWindow_w3 K (n + 1), keyWindow, keyStep_w3, keyWindow_w3, keyWindow_rc, Nat.add_mod_right]
  split
  · have hturn : (n + 3) / 4 = n / 4 := by omega
    rw [hturn]
    rfl
  · rfl

theorem getElem_wordOfKey (K : Block) (j : Nat) {r : Nat} (hr : r < 4) : (wordOfKey K j)[r] = cell K r j := by
  interval_cases r <;> rfl

theorem getElem_keyExpansion (K : Block) (k : Fin 11) (b : Fin 16) :
    (keyExpansion K)[k][b] = (keyWord K (4 * k.val + b.val / 4))[b.val % 4] := by
  simp [keyExpansion]

theorem keyExpansion_zero (K : Block) : (keyExpansion K)[0] = K := by
  refine Vector.ext fun b hb => ?_
  have hword : b / 4 < 4 := by omega
  calc (keyExpansion K)[0][b] = (keyWord K (4 * 0 + b / 4))[b % 4] := getElem_keyExpansion K 0 ⟨b, hb⟩
    _ = cell K (b % 4) (b / 4) := by simp only [Nat.mul_zero, Nat.zero_add, keyWord_of_lt K hword, getElem_wordOfKey]
    _ = K[b] := by rw [getElem_eq_cell K b hb]; exact cell_congr K (Nat.mod_mod b 4) rfl

/-- Settles O51: the loop's window holds the last four words, and its constant counts the multiples of 4. -/
theorem keyScheduleRecurrence : Obligations.KeyScheduleRecurrence := by
  refine fun K => ⟨fun j hj => ?_, fun i hi _ => ?_, getElem_keyExpansion K, keyExpansion_zero K⟩
  · rw [keyWord_of_lt K hj, wordOfKey, cell_eq_getElem K (r := 0) (by omega) hj,
      cell_eq_getElem K (r := 1) (by omega) hj, cell_eq_getElem K (r := 2) (by omega) hj,
      cell_eq_getElem K (r := 3) (by omega) hj]
    rfl
  · obtain ⟨n, rfl⟩ : ∃ n, i = n + 4 := ⟨i - 4, by omega⟩
    have hconstant : (n + 4) / 4 - 1 = n / 4 := by omega
    simp only [Nat.add_sub_cancel, show n + 4 - 1 = n + 3 from rfl, Nat.add_mod_right, hconstant, keyWord_add_four]
    split <;> rfl

/-! ### KEYEXP and KEYLD (R520, R521) -/

/-- Where KV was 1 and told the truth, expanding KEY again changes nothing (R520). -/
theorem expandKey_of_current {s : State} (hs : s.KeysCurrent) (hkv : s.kv = true) : s.expandKey = s := by
  have hrk : s.rk = keyExpansion s.key := hs hkv
  rw [State.expandKey, ← hrk, ← hkv]

/-- Settles O32: the command is `expandKey`, which changes nothing where RK was current; the examples by evaluation. -/
theorem keyexpCommand : Obligations.KeyexpCommand :=
  ⟨plainWord (i := .keyexp) (by decide), fun _ => rfl,
    fun s hs hkv => by rw [exec, execKeyexp, expandKey_of_current hs hkv]; rfl,
    keyExpansion_zero, by decide +kernel, by decide +kernel, by decide +kernel⟩

theorem keyldError_of_length_ne {s : State} (h : s.len.toNat ≠ 16) : s.keyldError = some .sizeMismatch := if_pos h

theorem keyldError_of_outside {s : State} (h : s.len.toNat = 16) (hout : s.config.bufSize < s.src.toNat + 16) :
    s.keyldError = some .range := by
  have hrange : s.inRange s.srcAddr 16 = false := decide_eq_false (Nat.not_le.mpr hout)
  simp [State.keyldError, State.length, h, hrange]

theorem execKeyld_of_error {s : State} {e : CmdError} (h : s.keyldError = some e) :
    execKeyld s = .next (onlyStatus s (some e)) := by
  rw [execKeyld, h]
  rfl

theorem execKeyld_of_legal {s : State} (h : s.keyldError = none) :
    execKeyld s = .next (onlyStatus { s with key := s.readBlock s.srcAddr, kv := false } none) := by
  rw [execKeyld, h]
  rfl

theorem getElem_readBlock (s : State) (a : Nat) (b : Fin 16) : (s.readBlock a)[b] = s.bufByte (a + b.val) := by
  rw [State.readBlock, Fin.getElem_fin, getElem_blockAt, Nat.zero_add, s.getD_memRead a 16 b.val b.isLt]

/-- Settles O33: the three outcomes of the checks of KEYLD, in the order R820 gives them. -/
theorem keyldCommand : Obligations.KeyldCommand :=
  ⟨plainWord (i := .keyld) (by decide),
    fun s hlen hsrc =>
      ⟨_, execKeyld_of_legal (s.keyldError_eq_none.mpr ⟨hlen, hsrc⟩), getElem_readBlock s s.srcAddr⟩,
    fun _ hlen => execKeyld_of_error (keyldError_of_length_ne hlen),
    fun _ hlen hsrc => execKeyld_of_error (keyldError_of_outside hlen hsrc)⟩

end Sys2Proof.Machine
end

section
/-! PROOFS. The single-block commands (R560, R561): their checks, what they leave, and the round trip through both. -/

namespace Sys2Proof.Machine

/-! ### The checks (R201, R202, R820) -/

theorem badOverlap_eq_decide (a n b m : Nat) : badOverlap a n b m = decide (PartlyOverlap a n b m) := by
  simp only [badOverlap, overlaps, PartlyOverlap, Bool.decide_and, Bool.and_assoc]

theorem inRange_eq_false (s : State) (a n : Nat) : s.inRange a n = false ↔ s.config.bufSize < a + n := by
  simp [State.inRange]

/-- The model's region checks are those of the table of R820. -/
theorem regionError_eq_expected (s : State) (n m : Nat) : s.regionError n m = expectedRegionError s n m := by
  have hrange : (!(s.inRange s.srcAddr n && s.inRange s.dstAddr m)) = true ↔
      s.config.bufSize < s.src.toNat + n ∨ s.config.bufSize < s.dst.toNat + m := by
    simp only [Bool.not_eq_true', Bool.and_eq_false_iff, inRange_eq_false]
    rfl
  simp only [State.regionError, expectedRegionError, hrange, badOverlap_eq_decide, decide_eq_true_eq]
  rfl

/-- A single-block command and the function of a block and the round keys that it computes (R560, R561). -/
abbrev BlockCommand (i : Instr) (f : Block → RoundKeys → Block) : Prop :=
  (i = .encblk ∧ f = cipher) ∨ (i = .decblk ∧ f = invCipher)

theorem blockError_eq_expected {i : Instr} {f : Block → RoundKeys → Block} (hi : BlockCommand i f) (s : State) :
    s.blockError = expectedError s i := by
  have hchecks : s.blockError = if s.len.toNat ≠ 16 then some .sizeMismatch else expectedRegionError s 16 16 := by
    rw [State.blockError, regionError_eq_expected]; rfl
  obtain ⟨rfl, -⟩ | ⟨rfl, -⟩ := hi <;> exact hchecks

/-- The checks of ENCBLK pass on one block in two regions of BUF that do not partly overlap. -/
theorem expectedError_encblk_eq_none (s : State) : expectedError s .encblk = none ↔
    s.len.toNat = 16 ∧ s.src.toNat + 16 ≤ s.config.bufSize ∧ s.dst.toNat + 16 ≤ s.config.bufSize ∧
      ¬ PartlyOverlap s.src.toNat 16 s.dst.toNat 16 := by
  rw [← blockError_eq_expected (.inl ⟨rfl, rfl⟩), s.blockError_eq_none, s.regionError_eq_none, badOverlap_eq_decide,
    decide_eq_false_iff_not]
  rfl

/-! ### What the commands leave (R560, R561, R830) -/

/-- What a completed block command leaves: B in STATE and at DST, 16 in OUTLEN, the expansion of KEY in RK. -/
def afterBlock (s : State) (B : Block) : State :=
  onlyStatus { s with state := B, buf := storeBytes s.buf s.dst.toNat B.toList, outlen := 16,
                      rk := keyExpansion s.key, kv := true } none

theorem bufByte_afterBlock (s : State) (B : Block) (a : Nat) : (afterBlock s B).bufByte a =
    if s.dst.toNat ≤ a ∧ a < s.dst.toNat + 16 then B.toList.getD (a - s.dst.toNat) 0 else s.bufByte a := by
  have hbuf : (afterBlock s B).buf = storeBytes s.buf s.dst.toNat B.toList := rfl
  rw [State.bufByte_of_storeBytes hbuf rfl, Vector.length_toList]

theorem bufByte_afterBlock_at (s : State) (B : Block) {b : Nat} (hb : b < 16) :
    (afterBlock s B).bufByte (s.dst.toNat + b) = B[b] := by
  rw [bufByte_afterBlock, if_pos (by omega), Nat.add_sub_cancel_left]
  simp [List.getD, hb]

theorem bufByte_afterBlock_outside (s : State) (B : Block) {a : Nat}
    (ha : a < s.dst.toNat ∨ s.dst.toNat + 16 ≤ a) : (afterBlock s B).bufByte a = s.bufByte a := by
  rw [bufByte_afterBlock, if_neg (by omega)]

section

variable {i : Instr} {f : Block → RoundKeys → Block} {s : State}

/-- The two commands differ in the function alone. -/
theorem exec_blockCommand (hi : BlockCommand i f) (s : State) : exec i s =
    match s.blockError with
    | some e => s.raiseBuffer e
    | none => (s.ensureRoundKeys.putBlock (f (s.readBlock s.srcAddr) s.ensureRoundKeys.rk)).succeed := by
  obtain ⟨rfl, rfl⟩ | ⟨rfl, rfl⟩ := hi <;> rfl

theorem exec_block_of_error (hi : BlockCommand i f) {e : CmdError} (h : expectedError s i = some e) :
    exec i s = .next (statusAndOutlen s e) := by
  rw [exec_blockCommand hi, blockError_eq_expected hi, h]
  rfl

theorem exec_block_of_legal (hi : BlockCommand i f) (hs : s.KeysCurrent) (h : expectedError s i = none) :
    exec i s = .next (afterBlock s (f (s.readBlock s.src.toNat) (keyExpansion s.key))) := by
  rw [exec_blockCommand hi, blockError_eq_expected hi, h]
  dsimp only
  rw [s.putBlock_eq, s.ensureRoundKeys_rk hs]
  rfl

end

/-- Settles O34: the outcomes by the checks of R820, the inverse by O50, the known answer by evaluating the cipher. -/
theorem blockCommands : Obligations.BlockCommands := by
  have hknown : cipher samplePlain (keyExpansion sampleKey) = sampleCipher := by decide +kernel
  refine ⟨plainWord (i := .encblk) (by decide), plainWord (i := .decblk) (by decide),
    fun i f hi => ⟨fun s hs h => ?_, fun s e => exec_block_of_error hi⟩,
    invCipher_cipher, hknown, hknown ▸ invCipher_cipher samplePlain _⟩
  exact ⟨_, _, rfl, exec_block_of_legal hi hs h, fun b => bufByte_afterBlock_at s _ b.isLt,
    fun a => bufByte_afterBlock_outside s _⟩

/-! ### ENCBLK, then DECBLK (R553, R561) -/

/-- The state in which a host that has run a block command on `s` with result C runs the next one, from that output
to `d`. -/
def fedBack (s : State) (C : Block) (d : Word) : State := { afterBlock s C with src := s.dst, dst := d }

theorem fedBack_keysCurrent (s : State) (C : Block) (d : Word) : (fedBack s C d).KeysCurrent := fun _ => rfl

theorem readBlock_fedBack (s : State) (C : Block) (d : Word) : (fedBack s C d).readBlock s.dst.toNat = C :=
  Vector.ext fun b hb =>
    calc ((fedBack s C d).readBlock s.dst.toNat)[b] = (fedBack s C d).bufByte (s.dst.toNat + b) :=
          getElem_readBlock _ _ ⟨b, hb⟩
      _ = (afterBlock s C).bufByte (s.dst.toNat + b) := State.bufByte_congr rfl rfl _
      _ = C[b] := bufByte_afterBlock_at s C hb

/-- DECBLK of a block that ENCBLK may have left at DST. -/
theorem exec_decblk_fedBack {s : State} (C : Block) {d : Word} (hlen : s.len.toNat = 16)
    (hdst : s.dst.toNat + 16 ≤ s.config.bufSize) (hd : d.toNat + 16 ≤ s.config.bufSize)
    (hoverlap : ¬ PartlyOverlap s.dst.toNat 16 d.toNat 16) :
    exec .decblk (fedBack s C d) = .next (afterBlock (fedBack s C d) (invCipher C (keyExpansion s.key))) := by
  have hchecks : expectedError (fedBack s C d) .decblk = none :=
    (expectedError_encblk_eq_none (fedBack s C d)).mpr ⟨hlen, hdst, hd, hoverlap⟩
  have hread : (fedBack s C d).readBlock (fedBack s C d).src.toNat = C := readBlock_fedBack s C d
  rw [exec_block_of_legal (.inr ⟨rfl, rfl⟩) (fedBack_keysCurrent s C d) hchecks, hread]
  rfl

/-- Settles O58: DECBLK reads the 16 bytes ENCBLK wrote, under the same round keys, and the inverse cipher undoes the
cipher. -/
theorem decblkRestoresTheBlock : Obligations.DecblkRestoresTheBlock := by
  intro s d hs henc hd hoverlap
  obtain ⟨hlen, -, hdst, -⟩ := (expectedError_encblk_eq_none s).mp henc
  refine ⟨_, _, exec_block_of_legal (.inl ⟨rfl, rfl⟩) hs henc, exec_decblk_fedBack _ hlen hdst hd hoverlap, rfl,
    fun b hb => ?_⟩
  rw [invCipher_cipher]
  exact (bufByte_afterBlock_at (fedBack s _ d) _ hb).trans (getElem_readBlock s _ ⟨b, hb⟩)

end Sys2Proof.Machine
end

section
/-! PROOFS. Padding (R600 to R605), the padding commands (R610, R611), and CBC decryption of CBC encryption (R653). -/

namespace Sys2Proof.Machine

/-! ### What Pad appends (R600, R601) -/

theorem padCount_pos (L : Nat) : 1 ≤ padCount L := by unfold padCount; omega

theorem padCount_le (L : Nat) : padCount L ≤ 16 := by unfold padCount; omega

theorem add_padCount (L : Nat) : L + padCount L = paddedLength L := by unfold padCount paddedLength; omega

/-- A pad count fits in the byte that holds it. -/
theorem toNat_padByte (L : Nat) : (BitVec.ofNat 8 (padCount L)).toNat = padCount L :=
  Nat.mod_eq_of_lt ((padCount_le L).trans_lt (by decide))

@[simp] theorem length_padBytes (L : Nat) : (padBytes L).length = padCount L := List.length_replicate

theorem toNat_getD_padBytes {L k : Nat} (hk : k < padCount L) : ((padBytes L).getD k 0).toNat = padCount L := by
  rw [padBytes, List.getD_replicate _ hk, toNat_padByte]

theorem length_padData (d : List Byte) : (padData d).length = paddedLength d.length := by
  rw [padData, List.length_append, length_padBytes, add_padCount]

/-- The last byte of padded data is the pad count. -/
theorem toNat_getD_padData_last (d : List Byte) :
    ((padData d).getD (paddedLength d.length - 1) 0).toNat = padCount d.length := by
  have hpos := padCount_pos d.length
  rw [padData, ← add_padCount, List.getD_append_right _ _ _ _ (by omega)]
  exact toNat_getD_padBytes (by omega)

/-- Settles O52: the pad bytes are so many that the length becomes the next multiple of 16. -/
theorem paddingLengths : Obligations.PaddingLengths := by
  refine fun d => ⟨padCount d.length, rfl, padCount_pos _, padCount_le _, rfl, length_padData d, fun m hm hd => ?_,
    fun hd => ?_⟩
  · rw [length_padData, paddedLength]
    omega
  · have hcount : padCount d.length = 16 := by rw [padCount, hd]
    rw [padData, padBytes, hcount]
    rfl

/-! ### What PadCheck looks at (R602, R603) -/

/-- PadCheck looks at the last byte and the length alone. -/
theorem padCheck_eq (d : List Byte) : padCheck d =
    if BadPadding (d.getD (d.length - 1) 0).toNat d.length then none
    else some (d.length - (d.getD (d.length - 1) 0).toNat) := by
  rcases List.eq_nil_or_concat' d with rfl | ⟨d, x, rfl⟩
  · rfl
  · have hlast : (d ++ [x]).getD ((d ++ [x]).length - 1) 0 = x := by simp
    have hlen : (d ++ [x]).length ≠ 0 := by simp
    rw [hlast, padCheck, List.getLast?_concat]
    dsimp only
    rw [← ite_or]
    exact if_congr (by omega) rfl rfl

/-- Settles O53: the byte `padCheck_eq` speaks of is the one appended. -/
theorem padCheckReadsTheLastByte : Obligations.PadCheckReadsTheLastByte :=
  ⟨rfl, fun d x => by simp [padCheck_eq, BadPadding]⟩

/-- PadCheck of padded data finds the length of the data (R604). -/
theorem padCheck_padData (d : List Byte) : padCheck (padData d) = some d.length := by
  have hpos := padCount_pos d.length
  have hle := padCount_le d.length
  have hsum := add_padCount d.length
  rw [padCheck_eq, length_padData, toNat_getD_padData_last, if_neg (by omega), ← hsum, Nat.add_sub_cancel]

/-! ### PAD (R610) -/

/-- What a successful PAD leaves: the pad bytes after the data, the padded length in OUTLEN. -/
def afterPad (s : State) : State :=
  onlyStatus { s with buf := storeBytes s.buf (s.src.toNat + s.len.toNat) (padBytes s.len.toNat),
                      outlen := BitVec.ofNat 32 (s.len.toNat + padCount s.len.toNat) } none

theorem exec_pad_of_fits {s : State} (h : s.src.toNat + (s.len.toNat + padCount s.len.toNat) ≤ s.config.bufSize) :
    exec .pad s = .next (afterPad s) := by
  have hin : s.inRange s.srcAddr (s.length + padCount s.length) = true := decide_eq_true h
  rw [exec, execPad, hin]
  rfl

theorem exec_pad_of_outside {s : State} (h : s.config.bufSize < s.src.toNat + (s.len.toNat + padCount s.len.toNat)) :
    exec .pad s = .next (statusAndOutlen s .range) := by
  have hout : s.inRange s.srcAddr (s.length + padCount s.length) = false := (inRange_eq_false s _ _).mpr h
  rw [exec, execPad, hout]
  rfl

theorem toNat_bufByte_afterPad (s : State) (a : Nat) : ((afterPad s).bufByte a).toNat =
    if s.src.toNat + s.len.toNat ≤ a ∧ a < s.src.toNat + s.len.toNat + padCount s.len.toNat
    then padCount s.len.toNat else (s.bufByte a).toNat := by
  have hbuf : (afterPad s).buf = storeBytes s.buf (s.src.toNat + s.len.toNat) (padBytes s.len.toNat) := rfl
  rw [State.bufByte_of_storeBytes hbuf rfl, length_padBytes]
  split
  · exact toNat_getD_padBytes (by omega)
  · rfl

/-- A length that a legal buffer holds fits in OUTLEN (R111). -/
theorem toNat_outlen_of_legal {c : Config} (hc : c.legal = true) {n : Nat} (hn : n ≤ c.bufSize) :
    (BitVec.ofNat 32 n).toNat = n := by
  obtain ⟨-, -, hmax⟩ := of_decide_eq_true hc
  exact Nat.mod_eq_of_lt (by omega)

/-- Settles O35: the two outcomes of the range check. -/
theorem padCommand : Obligations.PadCommand :=
  ⟨plainWord (i := .pad) (by decide),
    fun s hc hfit => ⟨_, _, exec_pad_of_fits hfit, toNat_outlen_of_legal hc (le_of_add_le_right hfit),
      toNat_bufByte_afterPad s⟩,
    fun _ => exec_pad_of_outside⟩

/-! ### UNPAD (R611) -/

/-- PadCheck of a buffer read looks at its last byte in the buffer. -/
theorem padCheck_memRead (s : State) (a n : Nat) : padCheck (s.memRead a n) =
    if BadPadding (s.bufByte (a + n - 1)).toNat n then none else some (n - (s.bufByte (a + n - 1)).toNat) := by
  rw [padCheck_eq, s.length_memRead]
  rcases eq_or_ne n 0 with rfl | hn
  · rfl
  · rw [s.getD_memRead a n (n - 1) (by omega), Nat.add_sub_assoc (by omega)]

/-- What a successful UNPAD leaves: in OUTLEN, LEN less the last byte. -/
def afterUnpad (s : State) : State :=
  onlyStatus { s with outlen := BitVec.ofNat 32
                        (s.len.toNat - (s.bufByte (s.src.toNat + s.len.toNat - 1)).toNat) } none

/-- UNPAD makes the checks of R820, and where they pass it sets OUTLEN alone. -/
theorem exec_unpad (s : State) : exec .unpad s =
    match expectedError s .unpad with
    | some e => .next (statusAndOutlen s e)
    | none => .next (afterUnpad s) := by
  have hpad := padCheck_memRead s s.src.toNat s.len.toNat
  have hread : s.memRead s.srcAddr s.length = s.memRead s.src.toNat s.len.toNat := rfl
  rw [exec, execUnpad, hread, hpad, expectedError]
  by_cases hrange : s.config.bufSize < s.src.toNat + s.len.toNat
  · have hout : s.inRange s.srcAddr s.length = false := (inRange_eq_false s _ _).mpr hrange
    rw [hout, if_pos hrange]
    rfl
  · have hin : s.inRange s.srcAddr s.length = true := decide_eq_true (not_lt.mp hrange)
    rw [hin, if_neg hrange]
    by_cases hbad : BadPadding (s.bufByte (s.src.toNat + s.len.toNat - 1)).toNat s.len.toNat
    · rw [if_pos hbad, if_pos hbad]
      rfl
    · rw [if_neg hbad, if_neg hbad]
      rfl

theorem exec_unpad_of_legal {s : State} (h : expectedError s .unpad = none) :
    exec .unpad s = .next (afterUnpad s) := by
  rw [exec_unpad, h]

theorem exec_unpad_of_error {s : State} {e : CmdError} (h : expectedError s .unpad = some e) :
    exec .unpad s = .next (statusAndOutlen s e) := by
  rw [exec_unpad, h]

/-- Settles O36: the outcomes of the checks; what is left of LEN fits in OUTLEN as LEN does. -/
theorem unpadCommand : Obligations.UnpadCommand :=
  ⟨plainWord (i := .unpad) (by decide),
    fun s _ h => ⟨_, exec_unpad_of_legal h, Nat.mod_eq_of_lt ((Nat.sub_le _ _).trans_lt s.len.isLt)⟩,
    fun _ _ => exec_unpad_of_error⟩

/-! ### CBC decryption undoes CBC encryption (R650, R651, R653) -/

/-- Each block is decrypted and XORed with what it was XORed with before encryption. -/
theorem chainDecrypt_chainEncrypt (rk : RoundKeys) (prev : Block) (qs : List Block) :
    chainDecrypt rk prev (chainEncrypt rk prev qs) = qs := by
  induction qs generalizing prev with
  | nil => rfl
  | cons q qs ih => rw [chainEncrypt, chainDecrypt, invCipher_cipher, xorBlock_self_right, ih]

theorem cbcDecryptRaw_cbcEncrypt (P : List Byte) (rk : RoundKeys) (iv : Block) :
    cbcDecryptRaw (cbcEncrypt P rk iv) rk iv = padData P := by
  have hwhole : (padData P).length % 16 = 0 := by rw [length_padData, paddedLength, Nat.mul_mod_right]
  rw [cbcDecryptRaw, cbcEncrypt, blocksOf_bytesOf, chainDecrypt_chainEncrypt, bytesOf_blocksOf hwhole]

/-- Settles O55: the two chains cancel block by block, and PadCheck undoes Pad. -/
theorem cbcRoundTrip : Obligations.CbcRoundTrip := fun P rk iv =>
  ⟨cbcDecryptRaw_cbcEncrypt P rk iv, padCheck_padData P⟩

end Sys2Proof.Machine
end

section
/-! PROOFS. The chains of CBC block by block (R650, R651, R654), and how a change of one ciphertext block spreads
(R655). -/

namespace Sys2Proof.Machine

/-! ### The two chains as lists of blocks (R650, R651) -/

@[simp] theorem length_chainEncrypt (rk : RoundKeys) (prev : Block) (qs : List Block) :
    (chainEncrypt rk prev qs).length = qs.length := by
  induction qs generalizing prev with
  | nil => rfl
  | cons q qs ih => rw [chainEncrypt, List.length_cons, ih, List.length_cons]

@[simp] theorem length_chainDecrypt (rk : RoundKeys) (chain : Block) (cs : List Block) :
    (chainDecrypt rk chain cs).length = cs.length := by
  induction cs generalizing chain with
  | nil => rfl
  | cons c cs ih => rw [chainDecrypt, List.length_cons, ih, List.length_cons]

/-- Block i is chained to the ciphertext block before it, which stands at i once `prev` is put in front. -/
theorem getElem_chainEncrypt (rk : RoundKeys) (prev : Block) (qs : List Block) {i : Nat} (hi : i < qs.length) :
    (chainEncrypt rk prev qs)[i]'(by simpa) =
      cipher (xorBlock qs[i] ((prev :: chainEncrypt rk prev qs)[i]'(by simp; omega))) rk := by
  induction qs generalizing prev i with
  | nil => nomatch hi
  | cons q qs ih =>
    cases i with
    | zero => rfl
    | succ i => exact ih (cipher (xorBlock q prev) rk) (Nat.lt_of_succ_lt_succ hi)

theorem getElem_chainDecrypt (rk : RoundKeys) (chain : Block) (cs : List Block) {i : Nat} (hi : i < cs.length) :
    (chainDecrypt rk chain cs)[i]'(by simpa) =
      xorBlock (invCipher cs[i] rk) ((chain :: cs)[i]'(by simp; omega)) := by
  induction cs generalizing chain i with
  | nil => nomatch hi
  | cons c cs ih =>
    cases i with
    | zero => rfl
    | succ i => exact ih c (Nat.lt_of_succ_lt_succ hi)

/-! ### The byte sequences (R650, R651, R654) -/

/-- What block i is chained to: the ciphertext block before it, IV before the first. -/
abbrev chainedTo (iv : Block) (C : List Byte) (i : Nat) : Block := if i = 0 then iv else blockAt C (16 * (i - 1))

theorem getElem_cons_blocksOf (iv : Block) (C : List Byte) {i : Nat} (hi : i < (iv :: blocksOf C).length) :
    (iv :: blocksOf C)[i] = chainedTo iv C i := by
  cases i with
  | zero => rfl
  | succ i => exact getElem_blocksOf C i (Nat.lt_of_succ_lt_succ hi)

theorem blocksOf_cbcEncrypt (P : List Byte) (rk : RoundKeys) (iv : Block) :
    blocksOf (cbcEncrypt P rk iv) = chainEncrypt rk iv (blocksOf (padData P)) := blocksOf_bytesOf _

theorem blocksOf_cbcDecryptRaw (C : List Byte) (rk : RoundKeys) (iv : Block) :
    blocksOf (cbcDecryptRaw C rk iv) = chainDecrypt rk iv (blocksOf C) := blocksOf_bytesOf _

theorem length_blocksOf_padData (P : List Byte) : (blocksOf (padData P)).length = P.length / 16 + 1 := by
  rw [length_blocksOf, length_padData, paddedLength, Nat.mul_div_cancel_left _ (by decide)]

theorem length_cbcEncrypt (P : List Byte) (rk : RoundKeys) (iv : Block) :
    (cbcEncrypt P rk iv).length = paddedLength P.length := by
  rw [cbcEncrypt, length_bytesOf, length_chainEncrypt, length_blocksOf_padData, paddedLength]

theorem length_cbcDecryptRaw {C : List Byte} (hC : C.length % 16 = 0) (rk : RoundKeys) (iv : Block) :
    (cbcDecryptRaw C rk iv).length = C.length := by
  rw [cbcDecryptRaw, length_bytesOf, length_chainDecrypt, length_blocksOf, Nat.mul_div_cancel' (Nat.dvd_of_mod_eq_zero hC)]

theorem blockAt_cbcEncrypt (P : List Byte) (rk : RoundKeys) (iv : Block) {i : Nat} (hi : i < P.length / 16 + 1) :
    blockAt (cbcEncrypt P rk iv) (16 * i) =
      cipher (xorBlock (blockAt (padData P) (16 * i)) (chainedTo iv (cbcEncrypt P rk iv) i)) rk := by
  have hi' : i < (blocksOf (padData P)).length := by rwa [length_blocksOf_padData]
  have hchain := getElem_chainEncrypt rk iv (blocksOf (padData P)) hi'
  simp only [← blocksOf_cbcEncrypt, getElem_cons_blocksOf, getElem_blocksOf] at hchain
  exact hchain

theorem blockAt_cbcDecryptRaw (C : List Byte) (rk : RoundKeys) (iv : Block) {i : Nat} (hi : i < C.length / 16) :
    blockAt (cbcDecryptRaw C rk iv) (16 * i) =
      xorBlock (invCipher (blockAt C (16 * i)) rk) (chainedTo iv C i) := by
  have hi' : i < (blocksOf C).length := by rwa [length_blocksOf]
  have hchain := getElem_chainDecrypt rk iv (blocksOf C) hi'
  simp only [← blocksOf_cbcDecryptRaw, getElem_cons_blocksOf, getElem_blocksOf] at hchain
  exact hchain

/-- Settles O54: the rules hold for the lists of blocks, and the blocks of the byte sequences are those lists. -/
theorem cbcChainingRules : Obligations.CbcChainingRules := fun rk iv =>
  ⟨fun P => ⟨length_cbcEncrypt P rk iv, length_padData P, fun _ => blockAt_cbcEncrypt P rk iv⟩,
    fun C m hC => ⟨length_cbcDecryptRaw (by omega) rk iv, fun _ hi => blockAt_cbcDecryptRaw C rk iv (by omega)⟩⟩

/-! ### Error propagation (R655) -/

/-- Settles O56: a plaintext block depends on its own ciphertext block through the inverse cipher and on the one before
it through XOR, and on nothing else. -/
theorem cbcErrorPropagation : Obligations.CbcErrorPropagation := by
  intro C D m i rk iv hC hD hi hsame
  have hblockC {j : Nat} (hj : j < m) := blockAt_cbcDecryptRaw C rk iv (i := j) (by omega)
  have hblockD {j : Nat} (hj : j < m) := blockAt_cbcDecryptRaw D rk iv (i := j) (by omega)
  have hchained {j : Nat} (hj : j < m) (hne : j ≠ i + 1) : chainedTo iv D j = chainedTo iv C j := by
    cases j with
    | zero => rfl
    | succ j => exact hsame j (by omega) (by omega)
  refine ⟨?_, fun hnext => ?_, fun j hj hne hne' => ?_⟩
  · rw [hblockC hi, hblockD hi, hchained hi (by omega), xorBlock_cancel_right]
  · rw [hblockC hnext, hblockD hnext, hsame (i + 1) hnext (by omega), xorBlock_cancel_left]
    rfl
  · rw [hblockC hj, hblockD hj, hsame j hj hne, hchained hj hne']

end Sys2Proof.Machine
end

section
/-! PROOFS. The CBC commands (R660, R661): their checks, what they leave, and the round trip through both (R653). -/

namespace Sys2Proof.Machine

/-! ### The checks (R820) -/

theorem cbcencError_eq_expected (s : State) : s.cbcencError = expectedError s .cbcenc :=
  regionError_eq_expected s s.length (paddedLength s.length)

/-- The checks of CBCENC pass where both regions lie in BUF and do not partly overlap. -/
theorem expectedError_cbcenc_eq_none (s : State) : expectedError s .cbcenc = none ↔
    s.src.toNat + s.len.toNat ≤ s.config.bufSize ∧ s.dst.toNat + paddedLength s.len.toNat ≤ s.config.bufSize ∧
      ¬ PartlyOverlap s.src.toNat s.len.toNat s.dst.toNat (paddedLength s.len.toNat) := by
  rw [← cbcencError_eq_expected, State.cbcencError, s.regionError_eq_none, badOverlap_eq_decide, decide_eq_false_iff_not]
  rfl

/-- The checks CBCDEC makes before it decrypts pass on whole blocks in two regions of BUF that do not partly overlap. -/
theorem cbcdecError_eq_none_iff (s : State) : s.cbcdecError = none ↔
    s.len.toNat ≠ 0 ∧ s.len.toNat % 16 = 0 ∧ s.src.toNat + s.len.toNat ≤ s.config.bufSize ∧
      s.dst.toNat + s.len.toNat ≤ s.config.bufSize ∧
      ¬ PartlyOverlap s.src.toNat s.len.toNat s.dst.toNat s.len.toNat := by
  rw [s.cbcdecError_eq_none, s.regionError_eq_none, badOverlap_eq_decide, decide_eq_false_iff_not]
  rfl

/-- CBCDEC reports the error of the checks it makes before it decrypts, then that of the padding check. -/
theorem expectedError_cbcdec (s : State) : expectedError s .cbcdec = s.cbcdecError.or
    (if BadPadding (s.cbcPlaintext.getD (s.len.toNat - 1) 0).toNat s.len.toNat then some .padding else none) := by
  have hchecks : s.cbcdecError = if s.len.toNat = 0 ∨ s.len.toNat % 16 ≠ 0 then some .malformedCiphertext
      else expectedRegionError s s.len.toNat s.len.toNat := by
    rw [State.cbcdecError, regionError_eq_expected]; rfl
  rw [hchecks, expectedError]
  split
  · rfl
  · cases expectedRegionError s s.len.toNat s.len.toNat <;> rfl

/-- Past the checks before the decryption, CBCDEC reports an error exactly where PadCheck of the plaintext fails. -/
theorem cbcdec_padding_cases {s : State} (h : s.cbcdecError = none) :
    (expectedError s .cbcdec = none ∧
      padCheck s.cbcPlaintext = some (s.len.toNat - (s.cbcPlaintext.getD (s.len.toNat - 1) 0).toNat)) ∨
    (expectedError s .cbcdec = some .padding ∧ padCheck s.cbcPlaintext = none) := by
  obtain ⟨-, hwhole, -⟩ := (cbcdecError_eq_none_iff s).mp h
  have hlen : s.cbcPlaintext.length = s.len.toNat := s.length_cbcPlaintext hwhole
  rw [expectedError_cbcdec, h, Option.none_or, padCheck_eq, hlen]
  split
  · exact .inr ⟨rfl, rfl⟩
  · exact .inl ⟨rfl, rfl⟩

/-- Where CBCDEC reports no error or Padding, it has decrypted (R830). -/
theorem cbcdecError_of_decrypted {s : State}
    (h : expectedError s .cbcdec = none ∨ expectedError s .cbcdec = some .padding) : s.cbcdecError = none := by
  rw [expectedError_cbcdec] at h
  cases he : s.cbcdecError with
  | none => rfl
  | some e =>
    rw [he, Option.some_or] at h
    obtain h | h := h
    · cases h
    · exact absurd (he.trans h) (cbcdecError_ne_padding s)

theorem cbcdecError_of_expected {s : State} {e : CmdError} (h : expectedError s .cbcdec = some e) (hne : e ≠ .padding) :
    s.cbcdecError = some e := by
  cases he : s.cbcdecError with
  | some e' => rwa [expectedError_cbcdec, he, Option.some_or] at h
  | none =>
    obtain ⟨herr, -⟩ | ⟨herr, -⟩ := cbcdec_padding_cases he
    · cases herr.symm.trans h
    · exact absurd (Option.some.inj (h.symm.trans herr)) hne

/-! ### What the commands leave (R660, R661, R830) -/

/-- What a CBC command that has made d leaves: d at DST and its last block in STATE, n in OUTLEN, the expansion of KEY in
RK, the code of e in STATUS. -/
def afterChain (s : State) (d : List Byte) (n : Nat) (e : Option CmdError) : State :=
  onlyStatus { s with state := blockAt d (d.length - 16), buf := storeBytes s.buf s.dst.toNat d,
                      outlen := BitVec.ofNat 32 n, rk := keyExpansion s.key, kv := true } e

theorem afterChain_eq {s : State} (hs : s.KeysCurrent) (d : List Byte) (n : Nat) (e : Option CmdError) :
    ((s.ensureRoundKeys.putChain d).setOutlen n).complete e = afterChain s d n e := by
  rw [s.putChain_eq, s.ensureRoundKeys_rk hs]
  rfl

theorem bufByte_afterChain (s : State) (d : List Byte) (n : Nat) (e : Option CmdError) (a : Nat) :
    (afterChain s d n e).bufByte a =
      if s.dst.toNat ≤ a ∧ a < s.dst.toNat + d.length then d.getD (a - s.dst.toNat) 0 else s.bufByte a := by
  have hbuf : (afterChain s d n e).buf = storeBytes s.buf s.dst.toNat d := rfl
  rw [State.bufByte_of_storeBytes hbuf rfl]

theorem bufByte_afterChain_at (s : State) {d : List Byte} (n : Nat) (e : Option CmdError) {k : Nat}
    (hk : k < d.length) : (afterChain s d n e).bufByte (s.dst.toNat + k) = d.getD k 0 := by
  rw [bufByte_afterChain, if_pos (by omega), Nat.add_sub_cancel_left]

theorem bufByte_afterChain_outside (s : State) {d : List Byte} (n : Nat) (e : Option CmdError) {a : Nat}
    (ha : a < s.dst.toNat ∨ s.dst.toNat + d.length ≤ a) : (afterChain s d n e).bufByte a = s.bufByte a := by
  rw [bufByte_afterChain, if_neg (by omega)]

section

variable {s : State}

theorem cbcCiphertext_of_current (hs : s.KeysCurrent) :
    s.cbcCiphertext = cbcEncrypt (s.memRead s.src.toNat s.len.toNat) (keyExpansion s.key) s.iv := by
  rw [State.cbcCiphertext, s.ensureRoundKeys_rk hs]
  rfl

theorem cbcPlaintext_of_current (hs : s.KeysCurrent) :
    s.cbcPlaintext = cbcDecryptRaw (s.memRead s.src.toNat s.len.toNat) (keyExpansion s.key) s.iv := by
  rw [State.cbcPlaintext, s.ensureRoundKeys_rk hs]
  rfl

theorem exec_cbcenc_of_error {e : CmdError} (h : expectedError s .cbcenc = some e) :
    exec .cbcenc s = .next (statusAndOutlen s e) := by
  rw [exec, execCbcenc, cbcencError_eq_expected, h]
  rfl

theorem exec_cbcenc_of_legal (hs : s.KeysCurrent) (h : expectedError s .cbcenc = none) :
    exec .cbcenc s = .next (afterChain s s.cbcCiphertext (paddedLength s.len.toNat) none) := by
  rw [exec, execCbcenc, cbcencError_eq_expected, h]
  exact congrArg _ (afterChain_eq hs _ _ _)

theorem exec_cbcdec_of_error {e : CmdError} (h : s.cbcdecError = some e) :
    exec .cbcdec s = .next (statusAndOutlen s e) := by
  rw [exec, execCbcdec, h]
  rfl

/-- CBCDEC past the checks before the decryption, the padding check failing or not. -/
theorem exec_cbcdec_of_decrypted (hs : s.KeysCurrent) (h : s.cbcdecError = none) :
    exec .cbcdec s =
      .next (afterChain s s.cbcPlaintext ((padCheck s.cbcPlaintext).getD 0) (expectedError s .cbcdec)) := by
  rw [exec, execCbcdec, h]
  obtain ⟨herr, hpad⟩ | ⟨herr, hpad⟩ := cbcdec_padding_cases h <;> rw [herr, hpad] <;>
    exact congrArg _ (afterChain_eq hs _ _ _)

end

/-- Settles O37: the two outcomes of the checks; the example by evaluating the encryption. -/
theorem cbcencCommand : Obligations.CbcencCommand := by
  refine ⟨plainWord (i := .cbcenc) (by decide), fun s hs hc h => ?_, fun s e => exec_cbcenc_of_error,
    by decide +kernel⟩
  intro OL C
  obtain ⟨-, hdst, -⟩ := (expectedError_cbcenc_eq_none s).mp h
  have hC : s.cbcCiphertext = C := cbcCiphertext_of_current hs
  have hlen : C.length = OL := hC ▸ s.length_cbcCiphertext
  have hexec := exec_cbcenc_of_legal hs h
  rw [hC, afterChain, hlen] at hexec
  exact ⟨_, _, hexec, toNat_outlen_of_legal hc (le_of_add_le_right hdst), hlen,
    fun k hk => bufByte_afterChain_at s 0 none (hlen ▸ hk),
    fun a ha => bufByte_afterChain_outside s 0 none (hlen ▸ ha)⟩

/-- Settles O38: the checks before the decryption, then the two outcomes of the padding check; the example by evaluating
the decryption. -/
theorem cbcdecCommand : Obligations.CbcdecCommand := by
  refine ⟨plainWord (i := .cbcdec) (by decide), fun s hs _ h => ?_,
    fun s e h hne => exec_cbcdec_of_error (cbcdecError_of_expected h hne), by decide +kernel⟩
  intro Q
  have hchecks := cbcdecError_of_decrypted h
  obtain ⟨-, hwhole, -⟩ := (cbcdecError_eq_none_iff s).mp hchecks
  have hQ : s.cbcPlaintext = Q := cbcPlaintext_of_current hs
  have hlen : Q.length = s.len.toNat := hQ ▸ s.length_cbcPlaintext hwhole
  have hexec := exec_cbcdec_of_decrypted hs hchecks
  have hcases := cbcdec_padding_cases hchecks
  rw [hQ] at hexec hcases
  rw [afterChain, hlen] at hexec
  refine ⟨_, _, hexec, hlen, fun hnone => ?_, fun hpadding => ?_,
    fun k hk => bufByte_afterChain_at s 0 none (hlen ▸ hk),
    fun a ha => bufByte_afterChain_outside s 0 none (hlen ▸ ha)⟩
  · obtain ⟨-, hpad⟩ | ⟨herr, -⟩ := hcases
    · rw [hpad]
      exact Nat.mod_eq_of_lt ((Nat.sub_le _ _).trans_lt s.len.isLt)
    · cases hnone.symm.trans herr
  · obtain ⟨herr, -⟩ | ⟨-, hpad⟩ := hcases
    · cases herr.symm.trans hpadding
    · rw [hpad]
      rfl

/-! ### CBCENC, then CBCDEC (R653) -/

/-- The state in which a host that has run CBCENC on `s` with result C runs CBCDEC, from that output to `d`. -/
def chainFedBack (s : State) (C : List Byte) (d : Word) : State :=
  { afterChain s C (paddedLength s.len.toNat) none with
    src := s.dst, dst := d, len := BitVec.ofNat 32 (paddedLength s.len.toNat) }

theorem chainFedBack_keysCurrent (s : State) (C : List Byte) (d : Word) : (chainFedBack s C d).KeysCurrent := fun _ => rfl

theorem memRead_chainFedBack (s : State) (C : List Byte) (d : Word) :
    (chainFedBack s C d).memRead s.dst.toNat C.length = C :=
  State.memRead_of_bytes _ fun _ hk => bufByte_afterChain_at s 0 none hk

theorem toNat_len_chainFedBack {s : State} (hc : s.config.legal = true)
    (hdst : s.dst.toNat + paddedLength s.len.toNat ≤ s.config.bufSize) (C : List Byte) (d : Word) :
    (chainFedBack s C d).len.toNat = paddedLength s.len.toNat :=
  toNat_outlen_of_legal hc (le_of_add_le_right hdst)

/-- CBCDEC reads the ciphertext back under the same round keys and IV. -/
theorem cbcPlaintext_chainFedBack {s : State} (hs : s.KeysCurrent) (hc : s.config.legal = true)
    (hdst : s.dst.toNat + paddedLength s.len.toNat ≤ s.config.bufSize) (d : Word) :
    (chainFedBack s s.cbcCiphertext d).cbcPlaintext = padData (s.memRead s.src.toNat s.len.toNat) := by
  have hread : (chainFedBack s s.cbcCiphertext d).memRead s.dst.toNat (paddedLength s.length) = s.cbcCiphertext := by
    rw [← s.length_cbcCiphertext]
    exact memRead_chainFedBack s _ d
  rw [cbcPlaintext_of_current (chainFedBack_keysCurrent s _ d), toNat_len_chainFedBack hc hdst]
  calc cbcDecryptRaw ((chainFedBack s s.cbcCiphertext d).memRead s.dst.toNat (paddedLength s.length))
        (keyExpansion s.key) s.iv
      = cbcDecryptRaw s.cbcCiphertext (keyExpansion s.key) s.iv := by rw [hread]
    _ = padData (s.memRead s.src.toNat s.len.toNat) := by
        rw [cbcCiphertext_of_current hs, cbcDecryptRaw_cbcEncrypt]

/-- CBCDEC of the ciphertext CBCENC left at DST makes the padded message, and PadCheck finds the message's length. -/
theorem exec_cbcdec_chainFedBack {s : State} {d : Word} (hs : s.KeysCurrent) (hc : s.config.legal = true)
    (hdst : s.dst.toNat + paddedLength s.len.toNat ≤ s.config.bufSize)
    (hd : d.toNat + paddedLength s.len.toNat ≤ s.config.bufSize)
    (hoverlap : ¬ PartlyOverlap s.dst.toNat (paddedLength s.len.toNat) d.toNat (paddedLength s.len.toNat)) :
    exec .cbcdec (chainFedBack s s.cbcCiphertext d) = .next (afterChain (chainFedBack s s.cbcCiphertext d)
      (padData (s.memRead s.src.toNat s.len.toNat)) s.len.toNat none) := by
  have hplain := cbcPlaintext_chainFedBack hs hc hdst d
  have hchecks : (chainFedBack s s.cbcCiphertext d).cbcdecError = none := by
    rw [cbcdecError_eq_none_iff, toNat_len_chainFedBack hc hdst]
    exact ⟨Nat.mul_ne_zero (by decide) (Nat.succ_ne_zero _), Nat.mul_mod_right _ _, hdst, hd, hoverlap⟩
  have hpad : padCheck (chainFedBack s s.cbcCiphertext d).cbcPlaintext = some s.len.toNat := by
    rw [hplain, padCheck_padData, State.length_memRead]
  have herr : expectedError (chainFedBack s s.cbcCiphertext d) .cbcdec = none := by
    obtain ⟨herr, -⟩ | ⟨-, hfail⟩ := cbcdec_padding_cases hchecks
    · exact herr
    · cases hfail.symm.trans hpad
  rw [exec_cbcdec_of_decrypted (chainFedBack_keysCurrent s _ d) hchecks, herr, hpad, hplain]
  rfl

/-- Settles O59: CBCDEC reads the bytes CBCENC wrote, under the same round keys and IV, and the chains cancel. -/
theorem cbcdecRestoresTheMessage : Obligations.CbcdecRestoresTheMessage := by
  intro s d hs hc henc hd hoverlap
  obtain ⟨-, hdst, -⟩ := (expectedError_cbcenc_eq_none s).mp henc
  refine ⟨_, _, exec_cbcenc_of_legal hs henc, exec_cbcdec_chainFedBack hs hc hdst hd hoverlap, rfl,
    BitVec.eq_of_toNat_eq (Nat.mod_eq_of_lt s.len.isLt), fun b hb => ?_⟩
  have hmem : (s.memRead s.src.toNat s.len.toNat).length = s.len.toNat := s.length_memRead _ _
  calc (afterChain _ (padData (s.memRead s.src.toNat s.len.toNat)) _ _).bufByte (d.toNat + b)
      = (padData (s.memRead s.src.toNat s.len.toNat)).getD b 0 :=
        bufByte_afterChain_at (chainFedBack s s.cbcCiphertext d) _ _ (by rw [padData, List.length_append]; omega)
    _ = (s.memRead s.src.toNat s.len.toNat).getD b 0 := List.getD_append _ _ _ _ (by rwa [hmem])
    _ = s.bufByte (s.src.toNat + b) := s.getD_memRead _ _ _ hb

end Sys2Proof.Machine
end

section
/-! PROOFS. The life of a command: acceptance (R701), the core's turn (R702, R704, R705), and NOP (R710). -/

namespace Sys2Proof.Machine

/-! ### The core's turn -/

section coreTurn

variable {s : State} {v : Word}

/-- With no event to come the turn is the core's (R705). -/
theorem step_of_no_events (hv : s.latch = some v) (he : s.events = []) : step s = executeWord v s := by
  rw [step, he]
  exact coreStep_running hv

theorem step_of_core_next (hv : s.latch = some v) {es : List Event} (he : s.events = .core :: es) :
    step s = executeWord v { s with events := es } := by
  rw [step, he]
  exact coreStep_running (s := { s with events := es }) hv

end coreTurn

/-- `withFetchWord` leaves the word as acceptance does (R701), the turn being the core's. -/
theorem step_withFetchWord (s : State) (v : Word) : step (s.withFetchWord 32 v.toNat) = executeWord v (s.accept v) := by
  have hfetch : s.withFetchWord 32 v.toNat = s.inFlight v := by
    rw [State.withFetchWord, Nat.mod_eq_of_lt v.isLt, BitVec.ofNat_toNat, BitVec.setWidth_eq]
  rw [hfetch]
  exact step_of_core_next (s := s.inFlight v) rfl rfl

/-- Settles O7: on the core's turn the step is `executeWord`, which completes for every word. -/
theorem acceptedCommandCompletes : Obligations.AcceptedCommandCompletes := by
  intro s v hv hturn
  have hstep : ∃ s', step s = executeWord v s' := by
    rcases hturn with he | ⟨es, he⟩
    · exact ⟨_, step_of_no_events hv he⟩
    · exact ⟨_, step_of_core_next hv he⟩
  obtain ⟨s', hs'⟩ := hstep
  obtain ⟨t, ht, hc⟩ := executeWord_completed v s'
  exact ⟨t, hs'.trans ht, hc.latch, hc.done⟩

/-- Settles O5: in each of the three cases the step is `executeWord` of a word that decodes. -/
theorem stepRunsTheDecodedCommand : Obligations.StepRunsTheDecodedCommand := fun s v _ hd =>
  ⟨fun hv he => (step_of_no_events hv he).trans (executeWord_ok hd s),
    fun hv _ he => (step_of_core_next hv he).trans (executeWord_ok hd _),
    (step_withFetchWord s v).trans (executeWord_ok hd _)⟩

/-! ### Acceptance (R701) -/

/-- Settles O20: offset 0 is CMD, a write there while Idle is `accept`, and DONE 0 holds IRQ at 0. -/
theorem cmdWriteIsAccepted : Obligations.CmdWriteIsAccepted := fun s v hidle =>
  ⟨writesTo_of_idle (w := .cmd) hidle rfl (by decide) rfl v, Bool.and_false s.ie, rfl⟩

/-! ### NOP (R710) -/

/-- Settles O25: the words by the decoder, the command by its one completion, the example by the first step after
reset. -/
theorem nopCommand : Obligations.NopCommand := by
  refine ⟨plainWord (i := .nop) (by decide), fun s => rfl, (State.reset.accept 0).complete none, ?_, by decide⟩
  exact (step_withFetchWord State.reset 0).trans (executeWord_ok (i := .nop) rfl _)

end Sys2Proof.Machine
end

section
/-! PROOFS. The errors of the commands: no run stops at one, the checks report the first that fails, and a failed command
leaves the data (O6, O39, O40). -/

namespace Sys2Proof.Machine

/-! ### Every step answers a next state (R800) -/

theorem coreStep_isNext (s : State) : ∃ t, coreStep s = .next t := by
  cases hl : s.latch with
  | none => exact ⟨s, coreStep_idle hl⟩
  | some v =>
    obtain ⟨t, ht, _⟩ := executeWord_completed v s
    exact ⟨t, (coreStep_running hl).trans ht⟩

theorem step_isNext (s : State) : ∃ t, step s = .next t := by
  unfold step
  split
  · exact coreStep_isNext s
  · next e es _ =>
    cases e with
    | bus req => exact ⟨_, rfl⟩
    | core => exact coreStep_isNext { s with events := es }
    | reset => exact ⟨_, rfl⟩

theorem run_succ {M : Host.Core} {s t : M.State} (h : M.step s = .next t) (k : Nat) : M.run (k + 1) s = M.run k t := by
  rw [Host.Core.run, h]

/-- Settles O6: by induction on the number of steps, each of which answers a next state. -/
theorem everyRunIsSafe : Obligations.EveryRunIsSafe := by
  intro k
  induction k with
  | zero => exact fun s => ⟨s, rfl⟩
  | succ k ih =>
    intro s
    obtain ⟨t, ht⟩ := step_isNext s
    obtain ⟨u, hu⟩ := ih t
    exact ⟨u, (run_succ (M := core) ht k).trans hu⟩

/-! ### What a command that reports an error leaves (R111, R830) -/

/-- What command i leaves of s with error e where it stored nothing: OUTLEN 0 if it produces a buffer result, and
nothing else changed but the completion fields (R830 (b), (c)). -/
def failedState (i : Instr) (s : State) (e : CmdError) : State :=
  if BufferProducing i then statusAndOutlen s e else onlyStatus s (some e)

section failedState

variable (i : Instr) (s : State) (e : CmdError)

theorem failedState_eq : failedState i s e = onlyStatus { s with outlen := (failedState i s e).outlen } (some e) := by
  unfold failedState
  split <;> rfl

@[simp] theorem failedState_errcode : (failedState i s e).errcode = some e := by
  rw [failedState_eq]
  rfl

variable {i}

theorem failedState_outlen_of_producing (hi : BufferProducing i) : (failedState i s e).outlen = 0 := by
  rw [failedState, if_pos hi]
  rfl

theorem failedState_outlen_of_not_producing (hi : ¬ BufferProducing i) : (failedState i s e).outlen = s.outlen := by
  rw [failedState, if_neg hi]
  rfl

end failedState

/-! ### The outcome of a command by the table of R820 -/

theorem keyldError_eq_expected (s : State) : s.keyldError = expectedError s .keyld := by
  simp only [State.keyldError, expectedError, Bool.not_eq_true', inRange_eq_false]
  rfl

/-- A command that fails a check has made it before it changed anything, but for the padding check of CBCDEC. -/
theorem exec_of_error {i : Instr} {s : State} {e : CmdError} (h : expectedError s i = some e)
    (hearly : ¬ (i = .cbcdec ∧ e = .padding)) : exec i s = .next (failedState i s e) := by
  cases i
  case keyld => exact execKeyld_of_error ((keyldError_eq_expected s).trans h)
  case encblk => exact exec_block_of_error (.inl ⟨rfl, rfl⟩) h
  case decblk => exact exec_block_of_error (.inr ⟨rfl, rfl⟩) h
  case pad =>
    rw [expectedError] at h
    split at h <;> cases h
    next hout => exact exec_pad_of_outside hout
  case unpad => exact exec_unpad_of_error h
  case cbcenc => exact exec_cbcenc_of_error h
  case cbcdec => exact exec_cbcdec_of_error (cbcdecError_of_expected h fun he => hearly ⟨rfl, he⟩)
  -- what is left makes no check
  all_goals cases h

/-- What CBCDEC leaves with a Padding error: the decryption it wrote, and OUTLEN 0 (R830 (d)). -/
def paddingFailedState (s : State) : State :=
  onlyStatus { s with outlen := 0, state := blockAt s.cbcPlaintext (s.cbcPlaintext.length - 16),
                      buf := storeBytes s.buf s.dst.toNat s.cbcPlaintext,
                      rk := s.ensureRoundKeys.rk, kv := true } (some .padding)

theorem exec_cbcdec_of_padding {s : State} (h : expectedError s .cbcdec = some .padding) :
    exec .cbcdec s = .next (paddingFailedState s) := by
  have hchecks := cbcdecError_of_decrypted (.inr h)
  obtain ⟨herr, _⟩ | ⟨_, hpad⟩ := cbcdec_padding_cases hchecks
  · cases herr.symm.trans h
  · rw [exec, execCbcdec, hchecks, hpad]
    dsimp only
    rw [s.putChain_eq]
    rfl

theorem roundCommand_errcode_of_legal {s t : State} {k : BitVec 4} {f : Block → RoundKeys → Fin 11 → Block}
    (hk : legalRound k = true) (h : s.roundCommand k f = .next t) : t.errcode = none := by
  rcases s.roundCommand_cases k f with ⟨hout, _⟩ | ⟨j, _, e⟩
  · exact absurd (of_decide_eq_true hk) (Nat.not_le.mpr hout)
  · cases e.symm.trans h
    rfl

theorem blockCommand_errcode_of_legal {i : Instr} {f : Block → RoundKeys → Block} (hi : BlockCommand i f) {s t : State}
    (hs : expectedError s i = none) (h : exec i s = .next t) : t.errcode = none := by
  rw [exec_blockCommand hi, blockError_eq_expected hi, hs] at h
  cases h
  rfl

theorem errcode_of_exec_legal {i : Instr} (hi : i.wellFormed = true) {s t : State} (hs : expectedError s i = none)
    (h : exec i s = .next t) : t.errcode = none := by
  cases i
  case addroundkey k | encround k | decround k =>
    rw [exec] at h
    exact roundCommand_errcode_of_legal hi h
  case keyld =>
    rw [exec, execKeyld_of_legal ((keyldError_eq_expected s).trans hs)] at h
    cases h
    rfl
  case encblk => exact blockCommand_errcode_of_legal (.inl ⟨rfl, rfl⟩) hs h
  case decblk => exact blockCommand_errcode_of_legal (.inr ⟨rfl, rfl⟩) hs h
  case pad =>
    rw [expectedError] at hs
    split at hs <;> cases hs
    next hfit =>
      cases (exec_pad_of_fits (not_lt.mp hfit)).symm.trans h
      rfl
  case unpad =>
    cases (exec_unpad_of_legal hs).symm.trans h
    rfl
  case cbcenc =>
    rw [exec, execCbcenc, cbcencError_eq_expected, hs] at h
    cases h
    rfl
  case cbcdec =>
    have hchecks := cbcdecError_of_decrypted (.inl hs)
    obtain ⟨_, hpad⟩ | ⟨herr, _⟩ := cbcdec_padding_cases hchecks
    · rw [exec, execCbcdec, hchecks] at h
      dsimp only at h
      rw [hpad] at h
      cases h
      rfl
    · cases hs.symm.trans herr
  -- what is left makes no check
  all_goals
    cases h
    rfl

/-- A well-formed command reports the error of the first check of its row that fails (R820). -/
theorem errcode_of_exec {i : Instr} (hi : i.wellFormed = true) {s t : State} (h : exec i s = .next t) :
    t.errcode = expectedError s i := by
  cases he : expectedError s i with
  | none => exact errcode_of_exec_legal hi he h
  | some e =>
    by_cases hpad : i = .cbcdec ∧ e = .padding
    · obtain ⟨rfl, rfl⟩ := hpad
      cases (exec_cbcdec_of_padding he).symm.trans h
      rfl
    · cases (exec_of_error he hpad).symm.trans h
      exact failedState_errcode i s e

/-- The two ways a well-formed command fails. -/
theorem exec_failed_cases {i : Instr} (hi : i.wellFormed = true) {s t : State} {e : CmdError} (h : exec i s = .next t)
    (he : t.errcode = some e) :
    (¬ (i = .cbcdec ∧ e = .padding) ∧ t = failedState i s e) ∨
    (i = .cbcdec ∧ e = .padding ∧ s.cbcdecError = none ∧ t = paddingFailedState s) := by
  have hexp : expectedError s i = some e := (errcode_of_exec hi h).symm.trans he
  by_cases hpad : i = .cbcdec ∧ e = .padding
  · obtain ⟨rfl, rfl⟩ := hpad
    cases (exec_cbcdec_of_padding hexp).symm.trans h
    exact .inr ⟨rfl, rfl, cbcdecError_of_decrypted (.inr hexp), rfl⟩
  · cases (exec_of_error hexp hpad).symm.trans h
    exact .inl ⟨hpad, rfl⟩

/-- Settles O39: an illegal word completes at once, a command's error is that of the table, and only Padding comes after
a change. -/
theorem checkOrder : Obligations.CheckOrder := by
  refine ⟨fun v s hv => ?_, fun i s hi => ?_⟩
  · obtain ⟨_, hd⟩ := (illegalWord_iff v).mp hv
    exact ⟨_, executeWord_error hd s, rfl⟩
  · obtain ⟨t, ht, _⟩ := exec_completed i s
    refine ⟨t, ht, errcode_of_exec hi ht, fun e he hne => ?_⟩
    obtain ⟨_, rfl⟩ | ⟨_, hpad, _⟩ := exec_failed_cases hi ht he
    · exact failedState_eq i s e
    · exact absurd hpad hne

/-! ### What a failed command leaves (R830) -/

theorem length_cbcPlaintext_of_checks {s : State} (h : s.cbcdecError = none) :
    s.cbcPlaintext.length = s.len.toNat := by
  obtain ⟨_, hwhole, _⟩ := s.cbcdecError_eq_none.mp h
  exact s.length_cbcPlaintext hwhole

theorem bufByte_paddingFailedState {s : State} (h : s.cbcdecError = none) (a : Nat) :
    (paddingFailedState s).bufByte a =
      if s.dst.toNat ≤ a ∧ a < s.dst.toNat + s.len.toNat then s.cbcPlaintext.getD (a - s.dst.toNat) 0
      else s.bufByte a := by
  have hbuf : (paddingFailedState s).buf = storeBytes s.buf s.dst.toNat s.cbcPlaintext := rfl
  rw [State.bufByte_of_storeBytes hbuf rfl, length_cbcPlaintext_of_checks h]

/-- Settles O40: an illegal word completes and does nothing else, and a command fails in one of the two ways of
`exec_failed_cases`. -/
theorem failedCommandLeavesTheData : Obligations.FailedCommandLeavesTheData := by
  intro v s t e h he
  have hc := completed_of_executeWord h
  refine ⟨hc.latch, hc.done, ?_⟩
  cases hd : decode v with
  | error d =>
    cases (executeWord_error hd s).symm.trans h
    cases he
    exact ⟨fun _ => rfl, nofun, nofun, fun _ => rfl, nofun⟩
  | ok i =>
    obtain ⟨_, _, _, hi⟩ := fields_of_decode hd
    have hx : exec i s = .next t := (executeWord_ok hd s).symm.trans h
    have hlegal : e ≠ .illegalCommand := fun hill => exec_ne_illegal hi hx (hill ▸ he)
    simp only [Except.ok.injEq, forall_eq']
    obtain ⟨hearly, rfl⟩ | ⟨rfl, rfl, hchecks, rfl⟩ := exec_failed_cases hi hx he
    · exact ⟨fun hill => absurd hill hlegal, failedState_outlen_of_producing s e,
        failedState_outlen_of_not_producing s e, fun _ => failedState_eq i s e,
        fun hdec hpad => absurd ⟨hdec, hpad⟩ hearly⟩
    · have hproducing : BufferProducing .cbcdec := by decide
      have hbytes := bufByte_paddingFailedState hchecks
      have hlen := length_cbcPlaintext_of_checks hchecks
      refine ⟨fun hill => absurd hill hlegal, fun _ => rfl, fun hnot => absurd hproducing hnot,
        fun hnot => absurd ⟨rfl, rfl⟩ hnot, fun _ _ => ⟨rfl, hlen ▸ rfl, fun k hk => ?_,
        fun a ha => ?_⟩⟩
      · rw [hbytes, if_pos (by omega), Nat.add_sub_cancel_left]
      · rw [hbytes, if_neg (by omega)]

end Sys2Proof.Machine
end

section
/-! PROOFS. The interrupt output, the bus while a command runs, and reset (O9, O18, O19, O23, O24). -/

namespace Sys2Proof.Machine

/-! ### The offsets of STATUS and CONFIG (R102) -/

theorem controlTarget_eq_status {w : Nat} (h : controlTarget w = .status) : w = 1 := by
  unfold controlTarget at h; split at h <;> simp at h ⊢

theorem controlTarget_eq_config {w : Nat} (h : controlTarget w = .config) : w = 2 := by
  unfold controlTarget at h; split at h <;> simp at h ⊢

theorem byteTarget_ne_status_or_config (w : Nat) : ¬ (byteTarget w = .status ∨ byteTarget w = .config) := by
  unfold byteTarget; split <;> simp

/-- STATUS and CONFIG are among the registers below 0x020, and nowhere else. -/
theorem controlTarget_of_targetAt {n m : Nat} {w : BusTarget} (hw : w = .status ∨ w = .config) (h : targetAt n m = w) :
    controlTarget (m / 4) = w := by
  unfold targetAt at h
  split_ifs at h
  · exact h
  all_goals
    subst h
    simp [byteTarget_ne_status_or_config] at hw

section offsets

variable {s : State} {off : Offset} (halign : off.toNat % 4 = 0)
include halign

theorem offset_of_target_cmd (h : s.target off = .cmd) : off = 0x0000 :=
  BitVec.eq_of_toNat_eq (targetAt_eq_cmd h halign)

theorem offset_of_target_status (h : s.target off = .status) : off = 0x0004 := by
  have hw := controlTarget_eq_status (controlTarget_of_targetAt (.inl rfl) h)
  exact BitVec.eq_of_toNat_eq (show off.toNat = 4 by omega)

theorem offset_of_target_config (h : s.target off = .config) : off = 0x0008 := by
  have hw := controlTarget_eq_config (controlTarget_of_targetAt (.inr rfl) h)
  exact BitVec.eq_of_toNat_eq (show off.toNat = 8 by omega)

end offsets

/-! ### What a host write while Idle does to DONE, HZ and IE (R115, R116, R701) -/

section idleWrite

variable {s : State} {v : Word} {w : BusTarget}

theorem idleWrite_clears_done (hs : s.done = true) (ht : (s.idleWrite v w).done = false) :
    w = .cmd ∨ w = .status ∧ v.getLsbD 1 = true := by
  cases w <;> simp_all [State.idleWrite, State.writeBufWord]

theorem idleWrite_clears_hz (hs : s.hz = true) (ht : (s.idleWrite v w).hz = false) :
    w = .status ∧ v.getLsbD 4 = true := by
  cases w <;> simp_all [State.idleWrite, State.writeBufWord]

theorem idleWrite_ie (hw : w ≠ .config) : (s.idleWrite v w).ie = s.ie := by
  cases w <;> simp_all [State.idleWrite, State.writeBufWord]

end idleWrite

/-! ### The interrupt output (R840) -/

theorem irq_eq_false_of_done {s : State} (h : s.done = false) : s.irq = false := by
  simp [State.irq, h]

/-- DONE falls by a reset, a STATUS write of bit 1 or an accepted CMD write, and by nothing else. -/
theorem step_clears_done {s t : State} (h : step s = .next t) (hs : s.done = true) (ht : t.done = false) :
    (∃ es, s.events = .reset :: es) ∨
    (s.latch = none ∧ ((∃ v es, s.events = .bus (.write 0x0004 v) :: es ∧ v.getLsbD 1 = true) ∨
      ∃ v es, s.events = .bus (.write 0x0000 v) :: es)) := by
  rcases step_changes h with ⟨z, n, r, es, rfl⟩ | ⟨es, v, _, hx⟩ | ⟨es, he, _⟩ | ⟨es, off, v, he, hidle, halign, rfl⟩
  · simp [hs] at ht
  · simp [(completed_of_executeWord hx).done] at ht
  · exact .inl ⟨es, he⟩
  · refine .inr ⟨hidle, ?_⟩
    obtain hw | ⟨hw, hbit⟩ := idleWrite_clears_done hs ht
    · exact .inr ⟨v, es, offset_of_target_cmd halign hw ▸ he⟩
    · exact .inl ⟨v, es, offset_of_target_status halign hw ▸ he, hbit⟩

/-- IE changes by a reset or a CONFIG write while Idle, and by nothing else. -/
theorem step_changes_ie {s t : State} (h : step s = .next t) (hie : s.ie ≠ t.ie) :
    (∃ es, s.events = .reset :: es) ∨ (s.latch = none ∧ ∃ v es, s.events = .bus (.write 0x0008 v) :: es) := by
  rcases step_changes h with ⟨z, n, r, es, rfl⟩ | ⟨es, v, _, hx⟩ | ⟨es, he, _⟩ | ⟨es, off, v, he, hidle, halign, rfl⟩
  · exact absurd rfl hie
  · exact absurd (completed_of_executeWord hx).ie.symm hie
  · exact .inl ⟨es, he⟩
  · by_cases hw : s.target off = .config
    · exact .inr ⟨hidle, v, es, offset_of_target_config halign hw ▸ he⟩
    · exact absurd (idleWrite_ie hw).symm hie

theorem step_of_reset {s : State} {es : List Event} (h : s.events = .reset :: es) :
    step s = .next (State.resetStep { s with events := es }) := by
  unfold step
  rw [h]
  rfl

/-- The next event is the host write that `WritesTo` speaks of. -/
theorem step_of_writesTo {s u : State} {n : Nat} {v : Word} {es : List Event} (hw : WritesTo s n v u)
    (he : s.events = .bus (.write (BitVec.ofNat 16 n) v) :: es) :
    step s = .next { u with events := es, response := some .ok } := by
  have hstep := hw es
  rwa [← he] at hstep

/-- Settles O23: completion sets DONE and leaves IE; what makes DONE or IE fall is read off `step_changes`. -/
theorem interruptOutput : Obligations.InterruptOutput := by
  refine ⟨fun s => Bool.and_eq_true_iff, fun v s t h => ?_, fun s t => step_clears_done, fun s t => step_changes_ie,
    fun s v hidle => ⟨writesTo_of_idle (w := .config) hidle rfl (by decide) rfl v, rfl⟩, fun s t v es h hfall => ?_,
    rfl, rfl⟩
  · have hc := completed_of_executeWord h
    simp [State.irq, hc.ie, hc.done]
  · apply irq_eq_false_of_done
    obtain ⟨hidle, he, hbit⟩ | ⟨hidle, he⟩ | he := hfall
    · have hw : WritesTo s 0x004 v (s.writeStatus v) := writesTo_of_idle (w := .status) hidle rfl (by decide) rfl v
      cases (step_of_writesTo hw he).symm.trans h
      simp [hbit]
    · have hw : WritesTo s 0x000 v (s.accept v) := writesTo_of_idle (w := .cmd) hidle rfl (by decide) rfl v
      cases (step_of_writesTo hw he).symm.trans h
      rfl
    · cases (step_of_reset he).symm.trans h
      rfl

/-! ### Writes while a command runs (R911) -/

theorem busRead_hz (s : State) (off : Offset) : (s.busRead off).hz = s.hz := by
  rcases busRead_cases s off with ⟨_, e⟩ | ⟨_, _, e⟩ | ⟨_, _, e⟩ <;> rw [e] <;> rfl

/-- HZ falls by a reset or a STATUS write of bit 4 while Idle, and by nothing else. -/
theorem step_clears_hz {s t : State} (h : step s = .next t) (hs : s.hz = true) (ht : t.hz = false) :
    (∃ es, s.events = .reset :: es) ∨
    (s.latch = none ∧ ∃ v es, s.events = .bus (.write 0x0004 v) :: es ∧ v.getLsbD 4 = true) := by
  rcases step_cases h with
    ⟨es, _, _, rfl⟩ | ⟨es, v, _, _, hx⟩ | ⟨es, he, _⟩ | ⟨es, off, _, rfl⟩ | ⟨es, off, v, he, rfl⟩
  · simp [hs] at ht
  · simp [(completed_of_executeWord hx).hz, hs] at ht
  · exact .inl ⟨es, he⟩
  · rw [busRead_hz] at ht
    simp [hs] at ht
  · rcases busWrite_cases { s with events := es } off v with ⟨_, e⟩ | ⟨_, _, e⟩ | ⟨halign, hidle, e⟩ <;> rw [e] at ht
    · simp [hs] at ht
    · simp at ht
    · obtain ⟨hw, hbit⟩ := idleWrite_clears_hz (s := { s with events := es }) hs ht
      exact .inr ⟨hidle, v, es, offset_of_target_status halign hw ▸ he, hbit⟩

/-- Settles O18: an aligned write is dropped as `writesTo_of_busy` says, a misaligned one as O13 does. -/
theorem writesWhileBusyAreDropped : Obligations.WritesWhileBusyAreDropped := by
  refine ⟨fun s off v es hbusy halign => ?_, fun s t => step_clears_hz, fun s off v es hmis => ?_⟩
  · have hw := writesTo_of_busy hbusy halign off.isLt v es
    rwa [BitVec.ofNat_toNat, BitVec.setWidth_eq] at hw
  · have ⟨_, hwrite⟩ := (busAnswersByAlignment s off v es).1 hmis
    exact ⟨_, hwrite, rfl, rfl⟩

/-! ### Reads while a command runs (R912) -/

theorem busRead_of_busy {s : State} {off : Offset} (hbusy : s.latch ≠ none) (halign : off.toNat % 4 = 0) :
    s.busRead off = s.drawRead.respond (.data (s.busyRead s.freeReads (s.target off))) := by
  obtain ⟨hmis, _⟩ | ⟨_, _, e⟩ | ⟨_, hidle, _⟩ := busRead_cases s off
  · exact absurd halign hmis
  · exact e
  · exact absurd hidle hbusy

/-- STATUS while a command runs: BUSY 1, HZ, and some KV. -/
theorem toNat_busyStatus (s : State) (kv : Bool) : (s.busyStatus kv).toNat = 1 + 8 * kv.toNat + 16 * s.hz.toNat := by
  simp [State.busyStatus, toNat_statusWord]

/-- Settles O19: the answer is `busyRead` of what the map names at the offset. -/
theorem readsWhileBusy : Obligations.ReadsWhileBusy := by
  intro s off es hbusy halign
  have hread := busRead_of_busy (s := { s with events := es }) hbusy halign
  have hnamed {n : Nat} {w : BusTarget} (hw : targetAt s.config.bufSize n = w) (hoff : off.toNat = n) :
      State.target { s with events := es } off = w := by
    rw [State.target, busTarget, hoff, hw]
  refine ⟨_, _, rfl, congrArg State.response hread, busRead_sameHardware { s with events := es } off, ?_⟩
  refine ⟨fun h => ?_, fun h => ⟨Config.freeKv s.freeReads, ?_⟩, fun h => ?_, fun h => ?_, fun h => ?_, fun h => ?_,
    fun h => ?_, fun j hj h => ?_, fun h => ?_, fun h => ?_, fun h => ?_⟩
  · rw [hnamed (w := .cmd) rfl h]
    rfl
  · rw [hnamed (w := .status) rfl h]
    exact toNat_busyStatus s _
  · rw [hnamed (w := .config) rfl h]
    exact (toNat_flagAt s.ie (by decide)).trans (Nat.one_mul _)
  · rw [hnamed (w := .id) rfl h]
    rfl
  · rw [hnamed (w := .src) rfl h]
    rfl
  · rw [hnamed (w := .dst) rfl h]
    rfl
  · rw [hnamed (w := .len) rfl h]
    rfl
  · rw [hnamed (targetAt_iv _ hj) h]
    exact toNat_blockWord s.iv hj
  · rw [hnamed (w := .opa) rfl h]
    exact toNat_setWidth_byte s.opa
  · rw [hnamed (w := .opb) rfl h]
    exact toNat_setWidth_byte s.opb
  · rw [hnamed (targetAt_reserved h) rfl]
    rfl

/-! ### Reset (R900 to R902) -/

/-- Settles O9: BUF_SIZE is the default, no byte is listed, KV is 0 and no command is in flight. -/
theorem resetMeetsTheInvariant : Obligations.ResetMeetsTheInvariant where
  legalConfig := by decide
  bufferInside := ⟨rfl, by simp [State.reset, State.resetWith]⟩
  keysCurrent := keysCurrent_of_invalid rfl
  latchAgrees := by simp [State.LatchAgrees, State.reset, State.resetWith]

/-- With no byte listed, BUF holds the draw (R902). -/
theorem bufByte_of_unwritten {s : State} (h : s.buf = []) (a : Nat) :
    s.bufByte a = Config.freeBufByte s.bufDraw a := by
  rw [State.bufByte, h]
  rfl

/-- ID reads its constant while Idle (R112). -/
theorem readsAs_id {s : State} (hidle : s.latch = none) : ReadsAs s 0x00C 0x41450107 :=
  readsAs_of_idle (w := .id) hidle rfl (by decide) rfl

/-- Settles O24: the registers are those of `resetWith`, and a machine after reset is Idle. -/
theorem resetValues : Obligations.ResetValues := by
  refine ⟨⟨rfl, rfl, rfl, rfl, rfl, rfl, rfl, rfl, rfl, rfl, rfl, rfl, fun k => ?_, rfl, rfl, rfl, fun k b => ?_,
    readsAs_id rfl, bufByte_of_unwritten rfl⟩, fun s es => ?_⟩
  · simp [State.reset, State.resetWith]
  · simp [State.reset, State.resetWith]
  · exact ⟨_, step_of_reset rfl, rfl, rfl, bufByte_of_unwritten rfl, Nat.succ_ne_self s.bufDraw, rfl,
      writesTo_of_idle (w := .cmd) rfl rfl (by decide) rfl, readsAs_id rfl⟩

end Sys2Proof.Machine
end
